-- ==== Sys2Proof/Word.lean ====
section
/-! DEFINITION. The word types of the Trimpa 310: what the spec treats as bits. -/

namespace Sys2Proof

/-- A byte: a register of the host window, a message byte, the data value of a line character. -/
abbrev Byte := BitVec 8

/-- A value of the 16-bit time counter, which wraps from 65535 to 0 (R151). -/
abbrev Time := BitVec 16

/-- An offset within the 64-register host window, A5..A0 (R166). -/
abbrev Offset := BitVec 6

end Sys2Proof
end

