-- ==== Sys2Proof/Syntax.lean ====
section
/-! DEFINITION. The commands of the block: one constructor per row of spec/opcode_table.json, in the table's order.
A row is a step of the part: a write of a command code to COMMAND, another access to the host window, a
reset, an arrival on the line, a timer reaching 0, or a tick of the Timebase. -/

namespace Sys2Proof

/-- The two banks of the event and enable registers: EVENTS_A and ENABLE_A, or EVENTS_B and ENABLE_B (R156). -/
inductive EventBank where
  | a
  | b
  deriving DecidableEq, Repr

/-- One step of the part.
The commands carry no operand of their own: a command reads its arguments from ARG0..ARG7 (R171). -/
inductive Instr where
  /-- ALLOCATE, code 0x01 (R119). -/
  | allocate
  /-- RELEASE, code 0x02 (R119). -/
  | release
  /-- SUBMIT, code 0x03 (R45 to R48). -/
  | submit
  /-- CANCEL, code 0x04 (R49 to R55). -/
  | cancel
  /-- TAKE, code 0x05 (R135, R136). -/
  | take
  /-- START, code 0x06 (R143). -/
  | start
  /-- STOP, code 0x07 (R144). -/
  | stop
  /-- ABORT, code 0x08 (R146). -/
  | abort
  /-- SET_LINE, code 0x09 (R110). -/
  | setLine
  /-- GET_LINE, code 0x0A (R111). -/
  | getLine
  /-- SET_LIMITS, code 0x0B (R148). -/
  | setLimits
  /-- GET_LIMITS, code 0x0C (R149). -/
  | getLimits
  /-- SET_STATION, code 0x0D (R28 to R34). -/
  | setStation
  /-- GET_STATION, code 0x0E (R39). -/
  | getStation
  /-- NEXT_CHANGE, code 0x0F (R37). -/
  | nextChange
  /-- RESET, code 0x10 (R154). -/
  | reset
  /-- A write to COMMAND of a code that names no command (R174). -/
  | unknownCommand (code : Byte)
  /-- A write to COMMAND while the Command Unit is BUSY (R173). -/
  | discardedCommandWrite (code : Byte)
  /-- The completion of the command in progress (R172). -/
  | commandCompletion
  /-- A write to EVENTS_A or EVENTS_B (R158). -/
  | eventsWrite (bank : EventBank) (value : Byte)
  /-- A write to ENABLE_A or ENABLE_B (R163). -/
  | enableWrite (bank : EventBank) (value : Byte)
  /-- A write to BUF_SELECT (R120). -/
  | bufSelectWrite (value : Byte)
  /-- A write to BUF_OFFSET (R120). -/
  | bufOffsetWrite (value : Byte)
  /-- A read of BUF_DATA (R121). -/
  | bufDataRead
  /-- A write to BUF_DATA (R121). -/
  | bufDataWrite (value : Byte)
  /-- A read of TIME_LO (R152). -/
  | timeLoRead
  /-- A write to a register with no row of its own: ARG0..ARG7, the read-only registers, the unused offsets (R167). -/
  | registerWrite (offset : Offset) (value : Byte)
  /-- RESET# falls (R153). -/
  | resetAssert
  /-- RESET# rises (R153). -/
  | resetRelease
  /-- The power-on detector resets the part and releases it (R153). -/
  | powerOn
  /-- The end of the initialisation that follows a reset (R155). -/
  | initialisationEnd
  /-- The receiver takes the stop-bit sample of a character (R4): its data value, and the samples of its mark
  bit, of its parity bit (disregarded when parity is NONE) and of its stop bit, 1 for mark. -/
  | characterDelivered (data : Byte) (mark parity stop : Bool)
  /-- The receiver confirms a start bit (R4, R93). -/
  | confirmedStartBit
  /-- RXD returns to mark after a held-back space character, before a break is detected (R106). -/
  | spaceCharacter
  /-- BREAK: RXD has been at space for 2 character times (R106). -/
  | breakDetected
  /-- RXD returns to mark after a break (R107). -/
  | breakEnd
  /-- The telegram-gap timer of GAP reaches 0 (R88). -/
  | telegramGapExpiry
  /-- The DE lead timer reaches 0 (R89). -/
  | deLeadExpiry
  /-- The DE trail timer reaches 0 (R89). -/
  | deTrailExpiry
  /-- The stop bit of a sent character ends before its echo has been delivered (R90). -/
  | echoMissing
  /-- The answer timer of WAITING reaches 0 (R93). -/
  | answerTimerExpiry
  /-- The character-gap timer of RECEIVING reaches 0 (R96, R97). -/
  | characterGapExpiry
  /-- The settle timer of SETTLING reaches 0 (R98, R99). -/
  | settleTimerExpiry
  /-- The holdoff timer of HOLDOFF reaches 0 (R105). -/
  | holdoffExpiry
  /-- The time counter rises (R151). -/
  | timeCounterTick
  /-- A 10 ms tick (R71, R151). -/
  | tenMsTick
  /-- A 100 ms tick (R72, R151). -/
  | hundredMsTick
  /-- The poll countdown of a station has reached 0: the station falls due for a poll (R71). -/
  | pollCountdownExpiry (station : Nat)
  /-- The probe countdown of a station has reached 0: the station falls due for a probe (R72). -/
  | probeCountdownExpiry (station : Nat)
  /-- The time counter has reached the hold-until value of a queued record (R67). -/
  | holdEnd
  /-- The stop bit of a sent character ends, its echo matched (R89). -/
  | characterSent
  /-- RXD returns to mark after a character with a framing failure that was not held back (R4). -/
  | rxdReturnToMark
  deriving DecidableEq, Repr

end Sys2Proof
end

