-- ==== Sys2Proof/Decode.lean ====
section
/-! DEFINITION. Reading commands. No row of spec/opcode_table.json gives bits, so no table word spells a command.
The part has codes of its own: the codes written to COMMAND (R176) and the offsets of the host window (section 10.2);
they are read here as the rows that those accesses are. -/

namespace Sys2Proof

/-- The command a table word spells: none, since no row of the table gives its command any bits. -/
def decodeTableWord (_nbits _w : Nat) : Option Instr :=
  none

/-- The command that a code written to COMMAND selects (R174, R176). -/
def commandOfCode (code : Byte) : Instr :=
  match code.toNat with
  | 0x01 => .allocate
  | 0x02 => .release
  | 0x03 => .submit
  | 0x04 => .cancel
  | 0x05 => .take
  | 0x06 => .start
  | 0x07 => .stop
  | 0x08 => .abort
  | 0x09 => .setLine
  | 0x0A => .getLine
  | 0x0B => .setLimits
  | 0x0C => .getLimits
  | 0x0D => .setStation
  | 0x0E => .getStation
  | 0x0F => .nextChange
  | 0x10 => .reset
  | _ => .unknownCommand code

/-- The row that a write access to an offset of the host window is (section 10.2), while the Command Unit is BUSY
or READY (R171, R173). -/
def hostWriteRow (busy : Bool) (offset : Offset) (value : Byte) : Instr :=
  match offset.toNat with
  | 0x02 => .eventsWrite .a value
  | 0x03 => .eventsWrite .b value
  | 0x04 => .enableWrite .a value
  | 0x05 => .enableWrite .b value
  | 0x06 => if busy then .discardedCommandWrite value else commandOfCode value
  | 0x14 => .bufSelectWrite value
  | 0x15 => .bufOffsetWrite value
  | 0x16 => .bufDataWrite value
  | _ => .registerWrite offset value

/-- The row that a read access to an offset is: only the reads that change state have one (R168). -/
def hostReadRow (offset : Offset) : Option Instr :=
  match offset.toNat with
  | 0x16 => some .bufDataRead
  | 0x1A => some .timeLoRead
  | _ => none

end Sys2Proof
end

