-- ==== Sys2Proof/Config.lean ====
section
/-! DEFINITION. What the part fixes: the sizes and limits the spec states as numbers.
The spec leaves no VALUE open to an implementation (log entry 1), so there is no free value here. -/

namespace Sys2Proof.Config

/-- Stations of the Station Table: addresses 1..31 (R19). -/
@[simp] def stationCount : Nat := 31

/-- Message buffers, indices 0..63 (R112). -/
@[simp] def bufferCount : Nat := 64

/-- Bytes of one message buffer (R112). -/
@[simp] def bufferBytes : Nat := 32

/-- Bytes of message memory: 64 buffers of 32 bytes (R112). -/
@[simp] def memoryBytes : Nat := 2048

/-- Records the Request Queue holds at most (R43). -/
@[simp] def queueCapacity : Nat := 16

/-- Records the Result Queue holds at most (R129). -/
@[simp] def resultCapacity : Nat := 24

/-- The collision that ends a transaction (R91). -/
@[simp] def collisionLimit : Nat := 4

/-- Where the fail count of a station stops (R19, R22). -/
@[simp] def failCountCap : Nat := 15

/-- Where the consecutive-request count stops (R61). -/
@[simp] def consecutiveCap : Nat := 15

/-- Where the 16-bit counters stop: the four counters of a station (R38) and the stray characters (R108). -/
@[simp] def counterCap : Nat := 65535

/-- Where the conflicts and breaks counters stop (R108). -/
@[simp] def lineCounterCap : Nat := 255

/-- What IDENT reads (R167). -/
@[simp] def ident : Byte := 0x3A

/-- CLKIN periods of the initialisation that follows each reset (R155). -/
@[simp] def initialisationPeriods : Nat := 4352

/-- CLKIN periods within which every command but RESET completes (R172). -/
@[simp] def completionPeriods : Nat := 32

end Sys2Proof.Config
end

