-- ==== Sys2Proof/Machine/State.lean ====
section
/-! DEFINITION. Everything the spec gives the Trimpa 310 to hold, as plain data, and its state right after reset. -/

namespace Sys2Proof.Machine

/-! ## Named values -/

/-- The line mode (R142). -/
inductive LineMode where
  | stopped
  | running
  | draining
  deriving DecidableEq, Repr

/-- The line phase (R86). -/
inductive LinePhase where
  | idle
  | gap
  | calling
  | waiting
  | receiving
  | settling
  | holdoff
  deriving DecidableEq, Repr

/-- The state of a station (R20). -/
inductive StationState where
  | unknown
  | online
  | suspect
  | offline
  | disabled
  deriving DecidableEq, Repr

/-- The party a message buffer belongs to (R113). -/
inductive Ownership where
  | free
  | host
  | queued
  | line
  | result
  deriving DecidableEq, Repr

/-- The kind of a call (R10). -/
inductive CallKind where
  | write
  | read
  | exchange
  | poll
  deriving DecidableEq, Repr

/-- The kind of an answer (R12). -/
inductive AnswerKind where
  | accept
  | data
  | busy
  | refuse
  | report
  | nothing
  deriving DecidableEq, Repr

/-- The first check an answer failed (R92); `lineBreak` is the spec's BREAK. -/
inductive Detail where
  | silent
  | framing
  | parity
  | markMisplaced
  | wrongDirection
  | wrongStation
  | lengthRange
  | check
  | wrongKind
  | truncated
  | lineBreak
  deriving DecidableEq, Repr

/-- How a request or a report ended (R128). -/
inductive ResultOutcome where
  | done
  | refused
  | noAnswer
  | badAnswer
  | stationBusy
  | conflict
  | cancelled
  | aborted
  | stationOffline
  | stationDisabled
  deriving DecidableEq, Repr

/-- What a result record came from (R128). -/
inductive ResultOrigin where
  | request
  | report
  deriving DecidableEq, Repr

/-- What started a transaction (R84). -/
inductive TransactionOrigin where
  | request
  | poll
  | probe
  deriving DecidableEq, Repr

/-- The parity setting (R2). -/
inductive Parity where
  | none
  | even
  | odd
  deriving DecidableEq, Repr

/-- The result code of a completed command (R175). -/
inductive ResultCode where
  | ok
  | cancelled
  | cancelPending
  | queueFull
  | notHost
  | badArgument
  | notFound
  | empty
  | wrongMode
  | badConfig
  | poolEmpty
  | none
  | unknownCommand
  deriving DecidableEq, Repr

/-- The ten latched event flags (R156). -/
inductive LatchedFlag where
  | commandDone
  | commandOverrun
  | resultsHigh
  | requestSpace
  | poolEmpty
  | stall
  | lineStopped
  | conflict
  | lineBreak
  | accessFault
  deriving DecidableEq, Repr

/-! ## Records -/

/-- An entry of the Station Table (R19). -/
structure Station where
  state : StationState
  failCount : Nat
  callToggle : Bool
  lastReport : Bool
  synced : Bool
  pollPeriod : Nat
  pollCountdown : Nat
  probeCountdown : Nat
  changed : Bool
  answersTaken : Nat
  failedAttempts : Nat
  duplicateReports : Nat
  lateCharacters : Nat
  deriving DecidableEq, Repr

/-- The values of an entry after RESET# or power-on (R40). -/
def Station.afterReset : Station :=
  { state := .unknown, failCount := 0, callToggle := false, lastReport := true, synced := false,
    pollPeriod := 0, pollCountdown := 0, probeCountdown := 0, changed := false,
    answersTaken := 0, failedAttempts := 0, duplicateReports := 0, lateCharacters := 0 }

/-- A record of the Request Queue (R42). Station 0 is broadcast. -/
structure Request where
  ticket : Nat
  station : Nat
  kind : CallKind
  urgent : Bool
  retryLimit : Nat
  outBuffer : Option Nat
  outLength : Nat
  attemptsMade : Nat
  holdUntil : Option Time
  deriving DecidableEq, Repr

/-- The call bits of a transaction, fixed at the first start bit of its first call (R84, R89). -/
structure CallBits where
  syncSent : Bool
  toggle : Bool
  ack : Bool
  deriving DecidableEq, Repr

/-- The judgement of an attempt (R84). -/
inductive Verdict where
  /-- A valid answer: its kind, its length, the ack bit of its control character and, for REFUSE, its code. -/
  | valid (kind : AnswerKind) (length : Nat) (ack : Bool) (refusal : Option Byte)
  /-- NO_ANSWER, with detail SILENT. -/
  | noAnswer
  /-- BAD_ANSWER, with one of the other details. -/
  | badAnswer (detail : Detail)
  deriving DecidableEq, Repr

/-- The transaction context (R84). Its reserved slot is the mark `State.reserved` (R130). -/
structure Context where
  origin : TransactionOrigin
  ticket : Nat
  station : Nat
  kind : CallKind
  urgent : Bool
  retryLimit : Nat
  attempts : Nat
  collisions : Nat
  outBuffer : Option Nat
  outLength : Nat
  answerBuffer : Option Nat
  cancelPending : Bool
  lastDetail : Option Detail
  callBits : Option CallBits
  verdict : Option Verdict
  deriving DecidableEq, Repr

/-- What the Line Controller keeps of the answer it is receiving (R94): how many characters it has taken, the
control value, the length L, the two accumulators, and the first payload byte (the refusal code of R95). -/
structure Reception where
  taken : Nat
  control : Byte
  length : Nat
  sum : Byte
  exclusiveOr : Byte
  firstPayload : Byte
  deriving DecidableEq, Repr

/-- A reception that has taken nothing. -/
def Reception.fresh : Reception :=
  { taken := 0, control := 0, length := 0, sum := 0, exclusiveOr := 0, firstPayload := 0 }

/-- The line configuration (R109). -/
structure LineConfig where
  bitRate : Nat
  parity : Parity
  answerTimeout : Nat
  characterGap : Nat
  telegramGap : Nat
  deLead : Nat
  deTrail : Nat
  holdoff : Nat
  deriving DecidableEq, Repr

/-- The line configuration after RESET# or power-on (R109). -/
def LineConfig.afterReset : LineConfig :=
  { bitRate := 1, parity := .none, answerTimeout := 20, characterGap := 3, telegramGap := 2, deLead := 1,
    deTrail := 1, holdoff := 40 }

/-- The five limits (R148). -/
structure Limits where
  offlineThreshold : Nat
  pollShare : Nat
  probeInterval : Nat
  busyDelay : Nat
  watermark : Nat
  deriving DecidableEq, Repr

/-- The limits after RESET# or power-on (R148). -/
def Limits.afterReset : Limits :=
  { offlineThreshold := 3, pollShare := 4, probeInterval := 10, busyDelay := 10, watermark := 16 }

/-- The bit rate and parity at which a character is received: those in force at its start bit (R110). -/
structure RxFormat where
  bitRate : Nat
  parity : Parity
  deriving DecidableEq, Repr

/-- The receiver and the break detector (R4, R106).
`inCharacter`: the character being received, from its confirmed start bit to its delivery.
`heldSpace`: a space character is held back until RXD returns to mark or a break is detected.
`awaitMark`: after a framing failure no new character starts until RXD has returned to mark.
`lineInBreak`: the line-in-break field of STATUS. -/
structure Receiver where
  inCharacter : Option RxFormat
  heldSpace : Bool
  awaitMark : Bool
  lineInBreak : Bool
  deriving DecidableEq, Repr

/-- A receiver that is ready for a start bit. -/
def Receiver.ready : Receiver :=
  { inCharacter := .none, heldSpace := false, awaitMark := false, lineInBreak := false }

/-- What the sender of a call is doing within CALLING (R89): nothing, the DE lead, a character (its place in the
telegram, its value and mark bit, and whether its echo has been matched, R90), or the DE trail. -/
inductive Transmit where
  | quiet
  | lead
  | sending (index : Nat) (data : Byte) (mark : Bool) (echoed : Bool)
  | trail
  deriving DecidableEq, Repr

/-- Which line timer is loaded (R87). -/
inductive TimerKind where
  | none
  | telegramGap
  | deLead
  | deTrail
  | answer
  | characterGap
  | settle
  | holdoff
  deriving DecidableEq, Repr

/-- The line timer of the phase, and the bit times it was last loaded with (R87). The counting between a load and
the expiry is not modelled: the expiry is an arrival (log entry 3). -/
structure LineTimer where
  kind : TimerKind
  bits : Nat
  deriving DecidableEq, Repr

/-- No line timer runs. -/
def LineTimer.off : LineTimer :=
  { kind := .none, bits := 0 }

/-- ARG0..ARG7, or the argument latch (R170, R171). -/
structure Args where
  arg0 : Byte
  arg1 : Byte
  arg2 : Byte
  arg3 : Byte
  arg4 : Byte
  arg5 : Byte
  arg6 : Byte
  arg7 : Byte
  deriving DecidableEq, Repr

/-- Eight argument bytes of 0x00. -/
def Args.zero : Args :=
  { arg0 := 0, arg1 := 0, arg2 := 0, arg3 := 0, arg4 := 0, arg5 := 0, arg6 := 0, arg7 := 0 }

/-- REPLY0..REPLY3 (R172). -/
structure Replies where
  reply0 : Byte
  reply1 : Byte
  reply2 : Byte
  reply3 : Byte
  deriving DecidableEq, Repr

/-- Four reply bytes of 0x00. -/
def Replies.zero : Replies :=
  { reply0 := 0, reply1 := 0, reply2 := 0, reply3 := 0 }

/-- The Command Unit (R170): READY; BUSY with a command whose immediate work is done, holding the result code and
the replies that its completion writes (R172); or BUSY with the initialisation that follows a reset (R155). -/
inductive CommandUnit where
  | ready
  | executing (code : ResultCode) (replies : Replies)
  | initialising
  deriving DecidableEq, Repr

/-- The ten latched flags (R156). -/
structure Events where
  commandDone : Bool
  commandOverrun : Bool
  resultsHigh : Bool
  requestSpace : Bool
  poolEmpty : Bool
  stall : Bool
  lineStopped : Bool
  conflict : Bool
  lineBreak : Bool
  accessFault : Bool
  deriving DecidableEq, Repr

/-- Every latched flag clear (R165). -/
def Events.clear : Events :=
  { commandDone := false, commandOverrun := false, resultsHigh := false, requestSpace := false, poolEmpty := false,
    stall := false, lineStopped := false, conflict := false, lineBreak := false, accessFault := false }

/-! ## The bus port (section 10.1) -/

/-- The levels of the host's pins at one moment: CS#, RD# and WR# (true for high, which is inactive), A5..A0, and what
the host drives on D7..D0. -/
structure Pins where
  cs : Bool
  rd : Bool
  wr : Bool
  address : Offset
  data : Byte
  deriving DecidableEq, Repr

/-- The access in progress (R166). A write keeps the latched flags as they stood when it began: raises are held back
while it lasts (R158). -/
inductive PortAccess where
  | none
  | read
  | write (standing : Events)
  deriving DecidableEq, Repr

/-- The bus port: the levels of CS#, RD# and WR#, whether CS# or a strobe has fallen since the last access ended, so
that a new one may begin, and the access in progress (R166). -/
structure Port where
  cs : Bool
  rd : Bool
  wr : Bool
  armed : Bool
  access : PortAccess
  deriving DecidableEq, Repr

/-- A port with CS#, RD# and WR# high and no access in progress. -/
def Port.idle : Port :=
  { cs := true, rd := true, wr := true, armed := false, access := .none }

/-- A result record (R127). -/
structure ResultRecord where
  ticket : Nat
  origin : ResultOrigin
  station : Nat
  kind : CallKind
  outcome : ResultOutcome
  answerKind : Option AnswerKind
  attempts : Nat
  collisions : Nat
  detail : Option Detail
  buffer : Option Nat
  length : Nat
  refusal : Option Byte
  cancelRequested : Bool
  stationLost : Bool
  stamp : Time
  deriving DecidableEq, Repr

/-- The twelve TAKEN registers, offsets 0x20..0x2B in order (R177). -/
structure Taken where
  ticket : Byte
  kinds : Byte
  station : Byte
  outcome : Byte
  answerKind : Byte
  counts : Byte
  detail : Byte
  buffer : Byte
  length : Byte
  refusal : Byte
  stampLow : Byte
  stampHigh : Byte
  deriving DecidableEq, Repr

/-- The TAKEN registers after every reset (R141). -/
def Taken.afterReset : Taken :=
  { ticket := 0, kinds := 0, station := 0, outcome := 0, answerKind := 0, counts := 0, detail := 0, buffer := 0xFF,
    length := 0, refusal := 0, stampLow := 0, stampHigh := 0 }

/-- Message memory (R112): byte i of buffer b stands at address 32 * b + i. The list holds the bytes that are not
0x00, addresses strictly rising; an unlisted byte reads 0x00, as every byte does after a reset (R124). -/
abbrev Memory := List Host.Cell

/-! ## Stops -/

/-- The faults of the block: none. Every arrival the spec describes leaves a next state; a faulting BUF_DATA access
is an event of the part, ACCESS_FAULT (R122), and no stop. -/
inductive Fault where
  deriving DecidableEq, Repr

/-- The refusals of the block. -/
inductive Refusal where
  /-- Raised by exec's arm for a row that has no meaning yet, by no meaning. Safe: nothing can be proved of a next
  state. Every row of the table has its meaning, so no arm raises it. -/
  | notModelled (mnemonic : String)
  deriving DecidableEq, Repr

/-! ## The state -/

/-- The state of the part. -/
structure State where
  /-- RESET# is held low (R153). -/
  resetHeld : Bool
  /-- The pin DE: the line driver is enabled (R89). -/
  de : Bool
  /-- The bus port (R166). -/
  port : Port
  /-- What the last read access drove on D7..D0: a row BUF_DATA_READ or TIME_LO_READ, or a read by the pins (R166). -/
  readData : Byte
  /-- ARG0..ARG7 (R170). -/
  args : Args
  /-- The argument latch (R171). -/
  latch : Args
  /-- The code of the command taken last, which COMMAND reads (R171). -/
  commandCode : Byte
  /-- READY or BUSY (R170). -/
  unit : CommandUnit
  /-- CMD_RESULT (R172). -/
  cmdResult : ResultCode
  /-- REPLY0..REPLY3 (R172). -/
  replies : Replies
  /-- BUF_SELECT (R120). -/
  bufSelect : Byte
  /-- BUF_OFFSET, 0..31 (R120). -/
  bufOffset : BitVec 5
  /-- FAULT (R122). -/
  faultReg : Byte
  /-- The snapshot byte that TIME_HI reads (R152). -/
  timeSnapshot : Byte
  /-- The TAKEN registers (R177). -/
  taken : Taken
  /-- The latched event flags (R156). While a write access is in progress: the raises held back since it began
  (R158). -/
  events : Events
  /-- ENABLE_A (R163). -/
  enableA : Byte
  /-- ENABLE_B, bits 4..7 at 0 (R163). -/
  enableB : Byte
  /-- The Station Table: the entry of address a stands at place a - 1 (R19). -/
  stations : List Station
  /-- The Request Queue, in queue order (R43). -/
  queue : List Request
  /-- The ticket counter, 1..255 (R44). -/
  ticketCounter : Nat
  /-- The consecutive-request count, 0..15 (R61). -/
  consecutive : Nat
  /-- The stall-active flag (R58). -/
  stallActive : Bool
  /-- The stall-reported flag (R58). -/
  stallReported : Bool
  /-- The round-robin pointer, 1..31 (R70). -/
  pollPointer : Nat
  /-- The line mode (R142). -/
  mode : LineMode
  /-- The line phase (R86). -/
  phase : LinePhase
  /-- The transaction context (R84). -/
  context : Option Context
  /-- The sender of the call (R89). -/
  tx : Transmit
  /-- The answer being received (R94). -/
  reception : Reception
  /-- The line timer of the phase (R87). -/
  timer : LineTimer
  /-- The receiver and the break detector (R4, R106). -/
  receiver : Receiver
  /-- The stray-characters counter, 0..65535 (R108). -/
  strayCharacters : Nat
  /-- The conflicts counter, 0..255 (R108). -/
  conflicts : Nat
  /-- The breaks counter, 0..255 (R108). -/
  breaks : Nat
  /-- The line configuration (R109). -/
  lineConfig : LineConfig
  /-- The limits (R148). -/
  limits : Limits
  /-- The ownership of each buffer, in order of index (R113). -/
  owners : List Ownership
  /-- The free list, head first (R116). -/
  freeList : List Nat
  /-- Message memory (R112). -/
  memory : Memory
  /-- The records of the Result Queue, head first (R129). -/
  results : List ResultRecord
  /-- The reservation mark (R130). -/
  reserved : Bool
  /-- The time counter (R151). -/
  timeCounter : Time
  /-- The 10 ms prescaler, 0..9 (R151). -/
  prescaler10 : Nat
  /-- The 100 ms prescaler, 0..9 (R151). -/
  prescaler100 : Nat
  /-- The return of the 10 ms prescaler to 0 has given a 10 ms tick that is not yet taken (R151, log entry 15). -/
  tick10Given : Bool
  /-- The return of the 100 ms prescaler to 0 has given a 100 ms tick that is not yet taken (R151, log entry 15). -/
  tick100Given : Bool
  /-- The MODEL's own field: the commands that are waiting, first in, first out. -/
  pending : List Instr
  deriving DecidableEq, Repr

/-- The part right after a RESET# or power-on reset: the reset step is made, RESET# is high, and the initialisation of
R155 is in progress, so the Command Unit is BUSY (section 8.5, the register map of section 10.2). -/
def State.reset : State :=
  { resetHeld := false, de := false, port := Port.idle, readData := 0,
    args := Args.zero, latch := Args.zero, commandCode := 0, unit := .initialising, cmdResult := .ok,
    replies := Replies.zero,
    bufSelect := 0, bufOffset := 0, faultReg := 0, timeSnapshot := 0, taken := Taken.afterReset,
    events := Events.clear, enableA := 0, enableB := 0,
    stations := List.replicate 31 Station.afterReset,
    queue := [], ticketCounter := 1, consecutive := 0, stallActive := false, stallReported := false,
    pollPointer := 31,
    mode := .stopped, phase := .idle, context := .none, tx := .quiet, reception := Reception.fresh,
    timer := LineTimer.off, receiver := Receiver.ready, strayCharacters := 0, conflicts := 0, breaks := 0,
    lineConfig := LineConfig.afterReset, limits := Limits.afterReset,
    owners := List.replicate 64 .free, freeList := List.range 64, memory := [],
    results := [], reserved := false,
    timeCounter := 0, prescaler10 := 0, prescaler100 := 0, tick10Given := false, tick100Given := false,
    pending := [] }

end Sys2Proof.Machine
end

