-- ==== Sys2Proof/Machine/Flags.lean ====
section
/-! DEFINITION. The Event Unit: raising and clearing the flags, the two level flags, the raises held back
during a write access, and IRQ# (chapter 9). -/

namespace Sys2Proof.Machine

/-- A latched flag as it stands (R156). -/
def Events.get (e : Events) : LatchedFlag → Bool
  | .commandDone => e.commandDone
  | .commandOverrun => e.commandOverrun
  | .resultsHigh => e.resultsHigh
  | .requestSpace => e.requestSpace
  | .poolEmpty => e.poolEmpty
  | .stall => e.stall
  | .lineStopped => e.lineStopped
  | .conflict => e.conflict
  | .lineBreak => e.lineBreak
  | .accessFault => e.accessFault

/-- A raise sets the flag; a raise of a set flag leaves it set (R157). -/
def Events.raise (e : Events) : LatchedFlag → Events
  | .commandDone => { e with commandDone := true }
  | .commandOverrun => { e with commandOverrun := true }
  | .resultsHigh => { e with resultsHigh := true }
  | .requestSpace => { e with requestSpace := true }
  | .poolEmpty => { e with poolEmpty := true }
  | .stall => { e with stall := true }
  | .lineStopped => { e with lineStopped := true }
  | .conflict => { e with conflict := true }
  | .lineBreak => { e with lineBreak := true }
  | .accessFault => { e with accessFault := true }

/-- The bank and the bit at which a latched flag stands (R156). -/
def LatchedFlag.place : LatchedFlag → EventBank × Nat
  | .commandDone => (.a, 0)
  | .commandOverrun => (.a, 1)
  | .resultsHigh => (.a, 3)
  | .requestSpace => (.a, 5)
  | .poolEmpty => (.a, 6)
  | .stall => (.a, 7)
  | .lineStopped => (.b, 0)
  | .conflict => (.b, 1)
  | .lineBreak => (.b, 2)
  | .accessFault => (.b, 3)

/-- A write to EVENTS_A or EVENTS_B clears each latched flag of that bank whose bit is 1 in the value; level flags
and bits without a flag are not touched (R158). -/
def Events.writeOneToClear (e : Events) : EventBank → Byte → Events
  | .a, value =>
    { e with
      commandDone := e.commandDone && !value.getLsbD 0
      commandOverrun := e.commandOverrun && !value.getLsbD 1
      resultsHigh := e.resultsHigh && !value.getLsbD 3
      requestSpace := e.requestSpace && !value.getLsbD 5
      poolEmpty := e.poolEmpty && !value.getLsbD 6
      stall := e.stall && !value.getLsbD 7 }
  | .b, value =>
    { e with
      lineStopped := e.lineStopped && !value.getLsbD 0
      conflict := e.conflict && !value.getLsbD 1
      lineBreak := e.lineBreak && !value.getLsbD 2
      accessFault := e.accessFault && !value.getLsbD 3 }

/-- Both banks' raises together: a raise that was held back is applied to the flags (R158). -/
def Events.merge (e held : Events) : Events :=
  { commandDone := e.commandDone || held.commandDone
    commandOverrun := e.commandOverrun || held.commandOverrun
    resultsHigh := e.resultsHigh || held.resultsHigh
    requestSpace := e.requestSpace || held.requestSpace
    poolEmpty := e.poolEmpty || held.poolEmpty
    stall := e.stall || held.stall
    lineStopped := e.lineStopped || held.lineStopped
    conflict := e.conflict || held.conflict
    lineBreak := e.lineBreak || held.lineBreak
    accessFault := e.accessFault || held.accessFault }

/-- One flag bit at its place in an event register. -/
def flagBit (place : Nat) (flag : Bool) : Byte :=
  if flag then BitVec.ofNat 8 (2 ^ place) else 0

/-- Raise a latched flag. -/
def State.raise (s : State) (flag : LatchedFlag) : State :=
  { s with events := s.events.raise flag }

/-- The latched flags as they stand: while a write access is in progress, as they stood when it began, since raises are
held back until it ends (R158, R166). -/
def State.flags (s : State) : Events :=
  match s.port.access with
  | .write standing => standing
  | .none | .read => s.events

/-- The level flag RESULT_READY: the Result Queue holds at least one record (R139, R159). -/
def State.resultReady (s : State) : Bool :=
  !s.results.isEmpty

/-- The level flag STATION_CHANGE: the change set holds at least one address (R36, R159). -/
def State.stationChange (s : State) : Bool :=
  s.stations.any (·.changed)

/-- What EVENTS_A reads (R156). -/
def State.eventsA (s : State) : Byte :=
  flagBit 0 s.flags.commandDone ||| flagBit 1 s.flags.commandOverrun ||| flagBit 2 s.resultReady |||
  flagBit 3 s.flags.resultsHigh ||| flagBit 4 s.stationChange ||| flagBit 5 s.flags.requestSpace |||
  flagBit 6 s.flags.poolEmpty ||| flagBit 7 s.flags.stall

/-- What EVENTS_B reads; bits 4..7 read 0 (R156). -/
def State.eventsB (s : State) : Byte :=
  flagBit 0 s.flags.lineStopped ||| flagBit 1 s.flags.conflict ||| flagBit 2 s.flags.lineBreak |||
  flagBit 3 s.flags.accessFault

/-- IRQ# is driven low while at least one flag is both set and enabled (R164). Otherwise it is released. -/
def State.irqLow (s : State) : Bool :=
  decide (s.eventsA &&& s.enableA ≠ 0) || decide (s.eventsB &&& s.enableB ≠ 0)

/-- A write to ENABLE_A stores the value; a write to ENABLE_B stores bits 0..3 (R163). -/
def State.writeEnable (s : State) : EventBank → Byte → State
  | .a, value => { s with enableA := value }
  | .b, value => { s with enableB := value &&& 0x0F }

end Sys2Proof.Machine
end

