-- ==== Sys2Proof/Machine/Operands.lean ====
section
/-! DEFINITION. The forms in which values are read and shown: register codes, line characters and their frames,
telegrams and their checks, the fields of address and control characters, reply bytes and the TAKEN layout. -/

namespace Sys2Proof.Machine

/-! ## Numbers in registers -/

/-- A count in a byte-wide register. -/
def byteOf (n : Nat) : Byte :=
  BitVec.ofNat 8 n

/-- The low byte of a 16-bit count. -/
def lowByte (n : Nat) : Byte :=
  BitVec.ofNat 8 (n % 256)

/-- The high byte of a 16-bit count. -/
def highByte (n : Nat) : Byte :=
  BitVec.ofNat 8 (n / 256)

/-- The low byte of a time counter value (R152, R177). -/
def timeLow (t : Time) : Byte :=
  t.setWidth 8

/-- The high byte of a time counter value (R152, R177). -/
def timeHigh (t : Time) : Byte :=
  (t >>> 8).setWidth 8

/-- A saturating counter stops at its largest value and does not wrap (section 6 of the introduction). -/
def satInc (cap n : Nat) : Nat :=
  if n < cap then n + 1 else n

/-- A bit as the number 0 or 1. -/
def bitOf (b : Bool) : Nat :=
  if b then 1 else 0

/-! ## Codes -/

/-- The code of a line mode (R142). -/
def LineMode.code : LineMode → Nat
  | .stopped => 0
  | .running => 1
  | .draining => 2

/-- The code of a line phase (R86). -/
def LinePhase.code : LinePhase → Nat
  | .idle => 0
  | .gap => 1
  | .calling => 2
  | .waiting => 3
  | .receiving => 4
  | .settling => 5
  | .holdoff => 6

/-- The code of a station state (R20). -/
def StationState.code : StationState → Nat
  | .unknown => 0
  | .online => 1
  | .suspect => 2
  | .offline => 3
  | .disabled => 4

/-- The code of an ownership (R113). -/
def Ownership.code : Ownership → Nat
  | .free => 0
  | .host => 1
  | .queued => 2
  | .line => 3
  | .result => 4

/-- The kind field of a call (R10). -/
def CallKind.code : CallKind → Nat
  | .write => 1
  | .read => 2
  | .exchange => 3
  | .poll => 4

/-- The kind field of an answer (R12). -/
def AnswerKind.code : AnswerKind → Nat
  | .accept => 1
  | .data => 2
  | .busy => 3
  | .refuse => 4
  | .report => 5
  | .nothing => 6

/-- The code of a detail (R92). -/
def Detail.code : Detail → Nat
  | .silent => 1
  | .framing => 2
  | .parity => 3
  | .markMisplaced => 4
  | .wrongDirection => 5
  | .wrongStation => 6
  | .lengthRange => 7
  | .check => 8
  | .wrongKind => 9
  | .truncated => 10
  | .lineBreak => 11

/-- The code of an outcome (R128). -/
def ResultOutcome.code : ResultOutcome → Nat
  | .done => 1
  | .refused => 2
  | .noAnswer => 3
  | .badAnswer => 4
  | .stationBusy => 5
  | .conflict => 6
  | .cancelled => 7
  | .aborted => 8
  | .stationOffline => 9
  | .stationDisabled => 10

/-- The code of a record's origin (R128). -/
def ResultOrigin.code : ResultOrigin → Nat
  | .request => 1
  | .report => 2

/-- The code of a parity setting (R109). -/
def Parity.code : Parity → Nat
  | .none => 0
  | .even => 1
  | .odd => 2

/-- The value of CMD_RESULT (R175). -/
def ResultCode.code : ResultCode → Nat
  | .ok => 0
  | .cancelled => 1
  | .cancelPending => 2
  | .queueFull => 3
  | .notHost => 4
  | .badArgument => 5
  | .notFound => 6
  | .empty => 7
  | .wrongMode => 8
  | .badConfig => 9
  | .poolEmpty => 10
  | .none => 11
  | .unknownCommand => 12

/-- The parity setting of a SET_LINE argument (R109, R110). -/
def Parity.ofArg (n : Nat) : Parity :=
  match n with
  | 1 => .even
  | 2 => .odd
  | _ => .none

/-- The call kind of a SUBMIT argument (R45). -/
def CallKind.ofArg (n : Nat) : Option CallKind :=
  match n with
  | 1 => some .write
  | 2 => some .read
  | 3 => some .exchange
  | _ => Option.none

/-- The out buffer of a SUBMIT argument: 0xFF gives an absent one (R45). -/
def bufferOfArg (b : Byte) : Option Nat :=
  if b = 0xFF then Option.none else some b.toNat

/-- How a register shows a buffer index: 0xFF when it is absent (section 6 of the introduction). -/
def showBuffer (b : Option Nat) : Byte :=
  match b with
  | some n => byteOf n
  | Option.none => 0xFF

/-! ## Line characters -/

/-- The bit times of one line character: 11 without parity, 12 with (R1). -/
def Parity.characterBits : Parity → Nat
  | .none => 11
  | .even | .odd => 12

/-- The bits D0..D7 of a data value, least significant first. -/
def dataBits (data : Byte) : List Bool :=
  (List.range 8).map data.getLsbD

/-- Whether the count of 1 bits among D0..D7 and M is odd. -/
def oddOnes (data : Byte) (mark : Bool) : Bool :=
  (dataBits data).foldl xor mark

/-- The parity bit P, absent under NONE: with EVEN the 1 bits among D0..D7, M and P are even in number, with ODD odd
(R2). -/
def Parity.bit (p : Parity) (data : Byte) (mark : Bool) : Option Bool :=
  match p with
  | .none => Option.none
  | .even => some (oddOnes data mark)
  | .odd => some (!oddOnes data mark)

/-- The frame of a character in time order, true for mark (R1). -/
def frameBits (p : Parity) (data : Byte) (mark : Bool) : List Bool :=
  [false] ++ dataBits data ++ [mark] ++ (p.bit data mark).toList ++ [true]

/-- The parity check of reception: the received P against the recomputed one; not checked under NONE (R2). -/
def Parity.passes (p : Parity) (data : Byte) (mark received : Bool) : Bool :=
  match p.bit data mark with
  | some expected => expected == received
  | Option.none => true

/-- A space character: every sampled bit is space, the parity bit too when parity is configured (R106). -/
def Parity.isSpaceCharacter (p : Parity) (data : Byte) (mark received stop : Bool) : Bool :=
  data == 0 && !mark && !stop && (p == .none || !received)

/-- What the receiver delivers: the data value, the mark bit, and whether the parity check and the framing passed
(R4). A parity that is not checked counts as passed. -/
structure Delivered where
  data : Byte
  mark : Bool
  parityOk : Bool
  framingOk : Bool
  deriving DecidableEq, Repr

/-- A character without framing or parity failure. -/
def Delivered.clean (c : Delivered) : Bool :=
  c.framingOk && c.parityOk

/-! ## Telegrams -/

/-- The address character of a call: the station in the five low bits, direction 0 (R6). -/
def callAddress (station : Nat) : Byte :=
  BitVec.ofNat 8 (station % 32)

/-- The control character of a call: kind in bits 0..2, toggle in bit 3, ack in bit 4, sync in bit 5 (R7). -/
def callControl (kind : CallKind) (bits : CallBits) : Byte :=
  BitVec.ofNat 8 (kind.code + 8 * bitOf bits.toggle + 16 * bitOf bits.ack + 32 * bitOf bits.syncSent)

/-- The sum of the covered characters, modulo 256 (R9). -/
def checkSum (covered : List Byte) : Byte :=
  covered.foldl (· + ·) 0

/-- Check A: what makes the sum of the covered characters and Check A, modulo 256, equal to 0 (R9). -/
def checkA (covered : List Byte) : Byte :=
  0 - checkSum covered

/-- Check B: the exclusive OR of the covered characters (R9). -/
def checkB (covered : List Byte) : Byte :=
  covered.foldl (· ^^^ ·) 0

/-- A telegram: address, control, length, payload, Check A, Check B; the checks cover control, length and payload
(R5, R9). -/
def telegram (address control : Byte) (payload : List Byte) : List Byte :=
  let covered := control :: byteOf payload.length :: payload
  address :: (covered ++ [checkA covered, checkB covered])

/-- The direction flag is 1 and both middle bits are 0 (R6). -/
def answerDirection (address : Byte) : Bool :=
  address.getLsbD 7 && !address.getLsbD 6 && !address.getLsbD 5

/-- The station address in the five low bits of an address character (R6). -/
def addressStation (address : Byte) : Nat :=
  address.toNat % 32

/-- The answer kind in bits 0..2 of a control value, of the kinds 1..6 (R7, R12). -/
def answerKindOf (control : Byte) : Option AnswerKind :=
  match control.toNat % 8 with
  | 1 => some .accept
  | 2 => some .data
  | 3 => some .busy
  | 4 => some .refuse
  | 5 => some .report
  | 6 => some .nothing
  | _ => Option.none

/-- Whether the sync bit and bits 6 and 7 of an answer's control value are all 0 (R7, R95). -/
def controlHighClear (control : Byte) : Bool :=
  !control.getLsbD 5 && !control.getLsbD 6 && !control.getLsbD 7

/-- Which answer kinds are valid after a call kind (R12). -/
def AnswerKind.validAfter (a : AnswerKind) (call : CallKind) : Bool :=
  match a, call with
  | .accept, .write => true
  | .data, .read | .data, .exchange => true
  | .busy, .write | .busy, .read | .busy, .exchange => true
  | .refuse, .write | .refuse, .read | .refuse, .exchange => true
  | .report, .poll => true
  | .nothing, .poll => true
  | _, _ => false

/-- The payload lengths an answer kind allows (R12). -/
def AnswerKind.lengthAllowed (a : AnswerKind) (length : Nat) : Bool :=
  match a with
  | .accept | .busy | .nothing => length == 0
  | .data => decide (length ≤ 32)
  | .refuse => length == 1
  | .report => decide (1 ≤ length) && decide (length ≤ 32)

/-- The answer kinds by which a station has acted on a call, at which the call toggle flips (R17). -/
def AnswerKind.acts : AnswerKind → Bool
  | .accept | .data | .refuse => true
  | .busy | .report | .nothing => false

/-! ## Argument and reply bytes -/

/-- ARG0..ARG7 by index; only 0..7 name one. -/
def Args.get (a : Args) (i : Nat) : Byte :=
  match i with
  | 0 => a.arg0
  | 1 => a.arg1
  | 2 => a.arg2
  | 3 => a.arg3
  | 4 => a.arg4
  | 5 => a.arg5
  | 6 => a.arg6
  | 7 => a.arg7
  | _ => 0

/-- A write to ARG0..ARG7 (R171). -/
def Args.set (a : Args) (i : Nat) (v : Byte) : Args :=
  match i with
  | 0 => { a with arg0 := v }
  | 1 => { a with arg1 := v }
  | 2 => { a with arg2 := v }
  | 3 => { a with arg3 := v }
  | 4 => { a with arg4 := v }
  | 5 => { a with arg5 := v }
  | 6 => { a with arg6 := v }
  | 7 => { a with arg7 := v }
  | _ => a

/-- Reply bytes from the numbers an owning rule gives. -/
def Replies.of (r0 r1 r2 r3 : Nat) : Replies :=
  { reply0 := byteOf r0, reply1 := byteOf r1, reply2 := byteOf r2, reply3 := byteOf r3 }

/-- The TAKEN registers that show a record (R127, R128, R177). -/
def Taken.ofRecord (r : ResultRecord) : Taken :=
  { ticket := byteOf r.ticket
    kinds := byteOf (r.kind.code + 16 * r.origin.code)
    station := byteOf (r.station + 32 * bitOf r.cancelRequested + 64 * bitOf r.stationLost)
    outcome := byteOf r.outcome.code
    answerKind := byteOf ((r.answerKind.map AnswerKind.code).getD 0)
    counts := byteOf (r.attempts + 16 * r.collisions)
    detail := byteOf ((r.detail.map Detail.code).getD 0)
    buffer := showBuffer r.buffer
    length := byteOf r.length
    refusal := r.refusal.getD 0
    stampLow := timeLow r.stamp
    stampHigh := timeHigh r.stamp }

/-- The TAKEN registers by their place from 0x20; only 0..11 name one (R177). -/
def Taken.get (t : Taken) (i : Nat) : Byte :=
  match i with
  | 0 => t.ticket
  | 1 => t.kinds
  | 2 => t.station
  | 3 => t.outcome
  | 4 => t.answerKind
  | 5 => t.counts
  | 6 => t.detail
  | 7 => t.buffer
  | 8 => t.length
  | 9 => t.refusal
  | 10 => t.stampLow
  | 11 => t.stampHigh
  | _ => 0

/-- The sequence byte of GET_STATION page 0 (R39). -/
def Station.sequenceByte (e : Station) : Nat :=
  bitOf e.callToggle + 2 * bitOf e.lastReport + 4 * bitOf e.synced + 8 * bitOf e.changed

/-! ## The bit clock -/

/-- The nominal bit rate of a bit-rate code at CLKIN = 16.000 MHz, in bit/s (R3). -/
def bitRateOf (code : Nat) : Nat :=
  match code with
  | 0 => 9600
  | 1 => 19200
  | 2 => 38400
  | 3 => 57600
  | 4 => 115200
  | 5 => 250000
  | 6 => 500000
  | _ => 1000000

/-- The bit rate at another CLKIN frequency, in kHz: every rate scales by f / 16 MHz (R150). The spec says nothing of
rounding; whole bit/s, rounded down, are the model's choice (DESIGN CHOICE, log entry 24). -/
def bitRateAt (code clkinKHz : Nat) : Nat :=
  bitRateOf code * clkinKHz / 16000

end Sys2Proof.Machine
end

