-- ==== Sys2Proof/Machine/Ops.lean ====
section
/-! DEFINITION. The named operations over the part's state: message memory, buffer ownership, the free list, station
entries, line timers, posting and closing a transaction. Every meaning is written over these. -/

namespace Sys2Proof.Machine

/-! ## RESET# (R153) -/

/-- A step that the part makes only while RESET# is high: the host window takes no access, no command is in progress,
and the receiver, the break detector and the Timebase do not run, while it is held low (R153). -/
def State.live (s : State) (f : State → State) : State :=
  if s.resetHeld then s else f s

/-- The port at a reset: an access in progress is dropped, and the pins stay at the levels the host drives (R153). -/
def Port.dropAccess (q : Port) : Port :=
  { q with armed := false, access := .none }

/-! ## Message memory (R112) -/

/-- The byte at an address; an unlisted byte reads 0x00 (R124). -/
def Memory.read (m : Memory) (address : Nat) : Byte :=
  match m with
  | [] => 0
  | (a, b) :: rest => if a = address then b else Memory.read rest address

/-- Write a byte, keeping the canonical form: 0x00 is not listed. -/
def Memory.write (m : Memory) (address : Nat) (value : Byte) : Memory :=
  match m with
  | [] => if value = 0 then [] else [(address, value)]
  | (a, b) :: rest =>
    if address < a then
      if value = 0 then (a, b) :: rest else (address, value) :: (a, b) :: rest
    else if address = a then
      if value = 0 then rest else (a, value) :: rest
    else (a, b) :: Memory.write rest address value

/-- Set `count` bytes from `start` on to 0x00. -/
def Memory.clear (m : Memory) (start count : Nat) : Memory :=
  m.filter fun cell => decide (cell.1 < start) || decide (start + count ≤ cell.1)

/-- Addresses strictly rising from `low` on and below the end of message memory, and no byte 0x00 listed. -/
def Memory.wfFrom (low : Nat) (m : Memory) : Bool :=
  match m with
  | [] => true
  | (a, b) :: rest => decide (low ≤ a) && decide (a < 2048) && decide (b ≠ 0) && Memory.wfFrom (a + 1) rest

/-- The canonical form of message memory. -/
def Memory.wf (m : Memory) : Bool :=
  m.wfFrom 0

/-- The address of byte `i` of a buffer (R112). -/
def bufferAddress (buffer i : Nat) : Nat :=
  32 * buffer + i

/-- Byte `i` of a buffer. -/
def State.bufferByte (s : State) (buffer i : Nat) : Byte :=
  s.memory.read (bufferAddress buffer i)

/-- Write byte `i` of a buffer; the part has no other byte than 0..31 of buffers 0..63 (R112). -/
def State.writeBuffer (s : State) (buffer i : Nat) (value : Byte) : State :=
  if buffer < 64 ∧ i < 32 then { s with memory := s.memory.write (bufferAddress buffer i) value } else s

/-- Set a buffer's 32 bytes to 0x00 (R94, R115). -/
def State.clearBuffer (s : State) (buffer : Nat) : State :=
  { s with memory := s.memory.clear (bufferAddress buffer 0) 32 }

/-- The first bytes of a buffer, in order: the payload of a call (R8). -/
def State.payload (s : State) (buffer : Option Nat) (length : Nat) : List Byte :=
  match buffer with
  | some b => (List.range length).map (s.bufferByte b)
  | none => []

/-! ## Ownership and the free list (R113, R114, R116) -/

/-- The ownership of a buffer. -/
def State.owner (s : State) (buffer : Nat) : Option Ownership :=
  s.owners[buffer]?

/-- A change of ownership, from an ownership other than FREE: the buffer leaves `old` and takes `new` in one step, and
a change to FREE appends it at the tail of the free list (R114). A buffer that is not `old` is not changed. -/
def State.changeOwner (s : State) (buffer : Nat) (old new : Ownership) : State :=
  if s.owner buffer = some old then
    { s with
      owners := s.owners.set buffer new
      freeList := if new = .free then s.freeList ++ [buffer] else s.freeList }
  else s

/-- The same change for a buffer that may be absent. -/
def State.changeOwner? (s : State) (buffer : Option Nat) (old new : Ownership) : State :=
  match buffer with
  | some b => s.changeOwner b old new
  | none => s

/-- Take the head of the free list: in one step the buffer is cleared and takes its new ownership, and POOL_EMPTY is
raised when the free count goes from 1 to 0 (R114, R115, R117). An empty list gives no buffer. -/
def State.takeHead (s : State) (new : Ownership) : State :=
  match s.freeList with
  | [] => s
  | b :: rest =>
    { s with
      freeList := rest
      owners := s.owners.set b new
      memory := s.memory.clear (bufferAddress b 0) 32
      events := if rest.isEmpty then s.events.raise .poolEmpty else s.events }

/-! ## Station entries (R19) -/

/-- The entry of a station. The addresses 1..31 have one; for any other the values after reset stand in. -/
def State.station (s : State) (address : Nat) : Station :=
  match address with
  | 0 => Station.afterReset
  | n + 1 => s.stations.getD n Station.afterReset

/-- Replace the entry of a station; only the addresses 1..31 have one. -/
def State.setStation (s : State) (address : Nat) (entry : Station) : State :=
  match address with
  | 0 => s
  | n + 1 => { s with stations := s.stations.set n entry }

/-- The state of a station in which polls go on the line (R20). -/
def StationState.polled : StationState → Bool
  | .unknown | .online | .suspect => true
  | .offline | .disabled => false

/-- The state of a station to which requests go on the line (R20). -/
def StationState.served : StationState → Bool
  | .unknown | .online | .suspect => true
  | .offline | .disabled => false

/-! ## Line timers (R87) -/

/-- The bit times of one line character at the parity setting in force (R1). -/
def State.characterBits (s : State) : Nat :=
  s.lineConfig.parity.characterBits

/-- Load a line timer with bit times. -/
def State.loadBits (s : State) (kind : TimerKind) (bits : Nat) : State :=
  { s with timer := { kind := kind, bits := bits } }

/-- Load a line timer with character times. -/
def State.loadCharacters (s : State) (kind : TimerKind) (n : Nat) : State :=
  s.loadBits kind (n * s.characterBits)

/-- The receiver is not inside a character, none is held back, and the line is not in break: the quiet timers count
(R87), and so does the character-gap timer (R96; in break, log entry 26). -/
def State.lineQuiet (s : State) : Bool :=
  s.receiver.inCharacter.isNone && !s.receiver.heldSpace && !s.receiver.lineInBreak

/-- Enter GAP: the telegram-gap timer is loaded (R88). -/
def State.enterGap (s : State) : State :=
  { s with phase := .gap }.loadCharacters .telegramGap s.lineConfig.telegramGap

/-- Enter HOLDOFF, or load its timer again (R105). -/
def State.enterHoldoff (s : State) : State :=
  { s with phase := .holdoff }.loadCharacters .holdoff s.lineConfig.holdoff

/-- Enter SETTLING, or load its timer again (R98). -/
def State.enterSettling (s : State) : State :=
  { s with phase := .settling }.loadCharacters .settle s.lineConfig.telegramGap

/-- Enter IDLE: no line timer runs. -/
def State.enterIdle (s : State) : State :=
  { s with phase := .idle, timer := LineTimer.off }

/-- Release DE and hold TXD at mark: a character in progress is cut off (R91, R146). -/
def State.releaseLine (s : State) : State :=
  { s with de := false, tx := .quiet }

/-! ## Line modes (R142) -/

/-- The mode becomes STOPPED other than by a reset: a holdoff is abandoned, the stall-active flag is cleared and
LINE_STOPPED is raised (R142, R161). Its callers have no context left. -/
def State.becomeStopped (s : State) : State :=
  { s.enterIdle with mode := .stopped, stallActive := false }.raise .lineStopped

/-- With no transaction in flight a line mode of DRAINING becomes STOPPED (R102, R145). -/
def State.endDrain (s : State) : State :=
  if s.mode = .draining ∧ s.context.isNone then s.becomeStopped else s

/-! ## The Result Queue (R129, R132, R133) -/

/-- Append a record at the tail, with the time counter's value as its stamp; RESULTS_HIGH is raised when the record
count reaches the watermark from below (R132, R133, R140). -/
def State.post (s : State) (r : ResultRecord) : State :=
  { s with
    results := s.results ++ [{ r with stamp := s.timeCounter }]
    events :=
      if s.results.length < s.limits.watermark ∧ s.results.length + 1 = s.limits.watermark then
        s.events.raise .resultsHigh
      else s.events }

/-- The record of a request or broadcast ending, with every optional field but the last failure detail absent
(R103). -/
def Context.record (c : Context) (outcome : ResultOutcome) : ResultRecord :=
  { ticket := c.ticket, origin := .request, station := c.station, kind := c.kind, outcome := outcome,
    answerKind := none, attempts := c.attempts, collisions := c.collisions, detail := c.lastDetail, buffer := none,
    length := 0, refusal := none, cancelRequested := false, stationLost := false, stamp := 0 }

/-- The record of a new report (R78). -/
def Context.reportRecord (c : Context) (length : Nat) : ResultRecord :=
  { ticket := 0, origin := .report, station := c.station, kind := .poll, outcome := .done,
    answerKind := some .report, attempts := 1, collisions := c.collisions, detail := none, buffer := c.answerBuffer,
    length := length, refusal := none, cancelRequested := false, stationLost := false, stamp := 0 }

/-! ## Closing a transaction (R102) -/

/-- The current verdict is a valid answer. -/
def Context.hasValidAnswer (c : Context) : Bool :=
  match c.verdict with
  | some (.valid _ _ _ _) => true
  | _ => false

/-- The ending of a request to a station clears the synced flag: a character of a call was sent, and the last call did
not get a valid answer. A valid answer counts only where its verdict has taken effect (R18). -/
def Context.clearsSync (c : Context) (verdictTaken : Bool) : Bool :=
  c.origin == .request && c.station != 0 && c.callBits.isSome && !(verdictTaken && c.hasValidAnswer)

/-- Clear the synced flag of a station. -/
def State.clearSynced (s : State) (address : Nat) : State :=
  s.setStation address { s.station address with synced := false }

/-- Step 2 of the closing: the out buffer goes to FREE; the answer buffer goes to RESULT when it is attached to the
record, and to FREE after the out buffer when it is not (R102). -/
def State.disposeBuffers (s : State) (c : Context) (attached : Bool) : State :=
  (s.changeOwner? c.outBuffer .line .free).changeOwner? c.answerBuffer .line
    (if attached then .result else .free)

/-- Step 1 of the closing: post into the reserved slot, or release it (R102, R131, R132). -/
def State.settleSlot (s : State) (record : Option ResultRecord) : State :=
  match record with
  | some r => { s with reserved := false }.post r
  | none => { s with reserved := false }

/-- Close a transaction in one step: the posting or the release of the slot, the buffers, the synced flag, and the
removal of the context (R102). The phase is left to the caller. -/
def State.close (s : State) (c : Context) (record : Option ResultRecord) (clearSync : Bool) : State :=
  let posted := s.settleSlot record
  let freed := posted.disposeBuffers c ((record.bind ResultRecord.buffer).isSome)
  let synced := if clearSync then freed.clearSynced c.station else freed
  { synced with context := none }

/-- Close a transaction that is cut short by a collision, by CANCEL in GAP or HOLDOFF, or by ABORT: a request or a
broadcast posts `outcome`, a poll or a probe posts nothing (R52, R80, R91, R146). -/
def State.closeEarly (s : State) (c : Context) (outcome : ResultOutcome) (cancelRequested verdictTaken : Bool) :
    State :=
  match c.origin with
  | .request =>
    s.close c (some { c.record outcome with cancelRequested := cancelRequested }) (c.clearsSync verdictTaken)
  | .poll | .probe => s.close c none false

end Sys2Proof.Machine
end

