-- ==== Sys2Proof/Machine/Stations.lean ====
section
/-! DEFINITION. The Station Table: the verdicts that reach an entry, SET_STATION's parts, and the countdowns
(chapters 2 and 4). -/

namespace Sys2Proof.Machine

/-! ## Verdicts -/

/-- The sequence fields after a valid answer (R17). -/
def Station.sequenceAfter (e : Station) (kind : AnswerKind) (syncSent : Bool) : Station :=
  if syncSent then
    { e with synced := true, callToggle := if kind.acts then !e.callToggle else e.callToggle }
  else if e.synced then
    { e with callToggle := if kind.acts then !e.callToggle else e.callToggle }
  else e

/-- The health fields after a valid answer: ONLINE with fail count 0, unless DISABLED (R21, R26). -/
def Station.healthyAfter (e : Station) : Station :=
  if e.state = .disabled then e
  else
    { e with
      state := .online
      failCount := 0
      changed := e.changed || e.state != .online
      pollCountdown := if e.state = .offline then e.pollPeriod else e.pollCountdown }

/-- A valid answer reaches the table (R17, R21, R26, R38). -/
def Station.takeValid (e : Station) (kind : AnswerKind) (syncSent : Bool) : Station :=
  let judged := (e.sequenceAfter kind syncSent).healthyAfter
  { judged with answersTaken := satInc Config.counterCap judged.answersTaken }

/-- The health fields after a failed attempt: SUSPECT below the offline threshold, OFFLINE at or above it, unless
DISABLED (R22, R23, R26). -/
def Station.failedAfter (e : Station) (threshold probeInterval : Nat) : Station :=
  let count := satInc Config.failCountCap e.failCount
  match e.state with
  | .disabled => e
  | .offline => { e with failCount := count }
  | .unknown | .online | .suspect =>
    if count < threshold then
      { e with failCount := count, state := .suspect, changed := e.changed || e.state != .suspect }
    else
      { e with failCount := count, state := .offline, synced := false, probeCountdown := probeInterval,
               changed := true }

/-- A failed attempt reaches the table (R22, R23, R26, R38). -/
def Station.takeFailure (e : Station) (threshold probeInterval : Nat) : Station :=
  let judged := e.failedAfter threshold probeInterval
  { judged with failedAttempts := satInc Config.counterCap judged.failedAttempts }

/-- A failure that moves the station from UNKNOWN, ONLINE or SUSPECT to OFFLINE (R24). -/
def Station.lostBy (before after : Station) : Bool :=
  before.state.served && after.state == .offline

/-! ## SET_STATION -/

/-- The reset-counters part (R30). -/
def Station.resetCounters (e : Station) : Station :=
  { e with answersTaken := 0, failedAttempts := 0, duplicateReports := 0, lateCharacters := 0 }

/-- The reset-entry part (R31). -/
def Station.resetEntry (e : Station) : Station :=
  { e with
    state := if e.state = .disabled then .disabled else .unknown
    changed := e.changed || (e.state != .disabled && e.state != .unknown)
    failCount := 0
    synced := false
    callToggle := false
    lastReport := true }

/-- The DISABLE part (R32). -/
def Station.disable (e : Station) : Station :=
  { e with
    state := .disabled
    changed := e.changed || e.state != .disabled
    failCount := 0
    synced := false }

/-- The ENABLE part; `period` is the poll period as it stands after the command (R33). -/
def Station.enable (e : Station) (period : Nat) : Station :=
  if e.state = .disabled then { e with state := .unknown, changed := true, pollCountdown := period } else e

/-- The poll-period part: a different period loads the poll countdown (R34). -/
def Station.setPeriod (e : Station) (period : Nat) : Station :=
  { e with
    pollPeriod := period
    pollCountdown := if period = e.pollPeriod then e.pollCountdown else period }

/-- The availability part: 0 KEEP, 1 ENABLE, 2 DISABLE (R28). -/
def Station.setAvailability (e : Station) (availability period : Nat) : Station :=
  match availability with
  | 1 => e.enable period
  | 2 => e.disable
  | _ => e

/-- An accepted SET_STATION, its parts in the order of R30 to R34 (R29). -/
def Station.configure (e : Station) (availability period : Nat) (resetEntry resetCounters : Bool) : Station :=
  let counted := if resetCounters then e.resetCounters else e
  let fresh := if resetEntry then counted.resetEntry else counted
  (fresh.setAvailability availability period).setPeriod period

/-! ## Countdowns -/

/-- An entry at a 10 ms tick (R71). -/
def Station.pollTick (e : Station) : Station :=
  if e.state.polled && decide (0 < e.pollPeriod) && decide (0 < e.pollCountdown) then
    { e with pollCountdown := e.pollCountdown - 1 }
  else e

/-- An entry at a 100 ms tick (R72). -/
def Station.probeTick (e : Station) : Station :=
  if e.state == .offline && decide (0 < e.probeCountdown) then
    { e with probeCountdown := e.probeCountdown - 1 }
  else e

/-- A candidate for a poll (R60). -/
def Station.pollDue (e : Station) : Bool :=
  e.state.polled && decide (0 < e.pollPeriod) && e.pollCountdown == 0

/-- A candidate for a probe (R60). -/
def Station.probeDue (e : Station) : Bool :=
  e.state == .offline && e.probeCountdown == 0

/-- An entry after the RESET command: DISABLED and the poll period are kept, the poll countdown is loaded with the
period (R41). -/
def Station.softReset (e : Station) : Station :=
  { Station.afterReset with
    state := if e.state = .disabled then .disabled else .unknown
    pollPeriod := e.pollPeriod
    pollCountdown := e.pollPeriod }

end Sys2Proof.Machine
end

