-- ==== Sys2Proof/Machine/Dispatcher.lean ====
section
/-! DEFINITION. The Request Queue's placement and tickets, and the Dispatcher's look (chapter 3). -/

namespace Sys2Proof.Machine

/-! ## The queue (R43) -/

/-- Place a record at the tail of its class (R43). -/
def placeAtTail (queue : List Request) (r : Request) : List Request :=
  if r.urgent then queue.takeWhile (·.urgent) ++ r :: queue.dropWhile (·.urgent) else queue ++ [r]

/-- Place a record at the head of its class (R43). -/
def placeAtHead (queue : List Request) (r : Request) : List Request :=
  if r.urgent then r :: queue else queue.takeWhile (·.urgent) ++ r :: queue.dropWhile (·.urgent)

/-- Remove the record of a ticket; the other records keep their order. REQUEST_SPACE is raised when the count goes from
16 to 15 (R43). -/
def State.removeRequest (s : State) (ticket : Nat) : State :=
  let rest := s.queue.eraseP (·.ticket == ticket)
  { s with
    queue := rest
    events :=
      if s.queue.length = Config.queueCapacity ∧ rest.length + 1 = Config.queueCapacity then
        s.events.raise .requestSpace
      else s.events }

/-- The ticket after a ticket: 1, 2, …, 255, then 1 again (R44). -/
def nextTicket (ticket : Nat) : Nat :=
  if 255 ≤ ticket then 1 else ticket + 1

/-- A queued record or the in-flight request holds the ticket (R44). -/
def State.ticketInUse (s : State) (ticket : Nat) : Bool :=
  s.queue.any (·.ticket == ticket) || (s.context.any fun c => c.origin == .request && c.ticket == ticket)

/-- The first ticket not in use from `ticket` on, within `fuel` steps (R44). -/
def State.freeTicket (s : State) (fuel ticket : Nat) : Nat :=
  match fuel with
  | 0 => ticket
  | n + 1 => if s.ticketInUse ticket then s.freeTicket n (nextTicket ticket) else ticket

/-! ## Eligibility (R59, R60) -/

/-- A READ or EXCHANGE needs an answer buffer; a WRITE, broadcasts included, does not (R59). -/
def Request.needsBuffer (r : Request) : Bool :=
  match r.kind with
  | .write => false
  | .read | .exchange | .poll => true

/-- The request will be completed without line activity: its station, if it has one, is OFFLINE or DISABLED (R64). -/
def State.completesAtDispatch (s : State) (r : Request) : Bool :=
  r.station != 0 && !(s.station r.station).state.served

/-- Items 1 and 2 of eligibility, with the exemption of a station that is OFFLINE or DISABLED (R59). -/
def State.requestReady (s : State) (r : Request) : Bool :=
  r.holdUntil.isNone && (!r.needsBuffer || !s.freeList.isEmpty || s.completesAtDispatch r)

/-- The first eligible record of a queue; `blocked` are the stations of the ineligible records ahead (R59, item 3). -/
def State.firstEligible (s : State) (queue : List Request) (blocked : List Nat) : Option Request :=
  match queue with
  | [] => none
  | r :: rest =>
    if s.requestReady r && !blocked.contains r.station then some r
    else s.firstEligible rest (r.station :: blocked)

/-- The eligible request of a look (R59). -/
def State.eligibleRequest (s : State) : Option Request :=
  s.firstEligible s.queue []

/-- The station is due for a poll or probe (R60). -/
def State.stationDue (s : State) (address : Nat) : Bool :=
  let e := s.station address
  e.pollDue || e.probeDue

/-- The addresses in round-robin order: from the one after the pointer up to 31, then from 1 to the pointer (R60). -/
def roundRobin (pointer : Nat) : List Nat :=
  (List.range 31).map fun i => (pointer + i) % 31 + 1

/-- The due station of a look (R60). -/
def State.dueStation (s : State) : Option Nat :=
  (roundRobin s.pollPointer).find? s.stationDue

/-- The due station, if the poll or probe has a buffer to take (R60). -/
def State.eligibleDue (s : State) : Option Nat :=
  if s.freeList.isEmpty then none else s.dueStation

/-- What a look chooses. -/
inductive Choice where
  | request (r : Request)
  | poll (address : Nat)
  | nothing
  deriving DecidableEq, Repr

/-- The choice of a look that has found a slot free (R61). -/
def State.choose (s : State) : Choice :=
  match (if s.limits.pollShare ≤ s.consecutive then s.eligibleDue else none) with
  | some a => .poll a
  | none =>
    match s.eligibleRequest with
    | some r => .request r
    | none =>
      match s.eligibleDue with
      | some a => .poll a
      | none => .nothing

/-! ## Dispatch -/

/-- Dispatch a request onto the line, as one step (R62). -/
def State.dispatchRequest (s : State) (r : Request) : State :=
  let removed := { s.removeRequest r.ticket with reserved := true }
  let answer := if r.needsBuffer then removed.freeList.head? else none
  let taken := if r.needsBuffer then removed.takeHead .line else removed
  let carried := taken.changeOwner? r.outBuffer .queued .line
  { carried with
    context := some
      { origin := .request, ticket := r.ticket, station := r.station, kind := r.kind, urgent := r.urgent,
        retryLimit := r.retryLimit, attempts := r.attemptsMade, collisions := 0, outBuffer := r.outBuffer,
        outLength := r.outLength, answerBuffer := answer, cancelPending := false, lastDetail := none,
        callBits := none, verdict := none }
    consecutive := satInc Config.consecutiveCap s.consecutive
    stallReported := false }.enterGap

/-- The countdown that a dispatch loads: the probe countdown of an OFFLINE station, the poll countdown of any other
(R63). -/
def Station.dispatched (e : Station) (probeInterval : Nat) : Station :=
  if e.state = .offline then { e with probeCountdown := probeInterval } else { e with pollCountdown := e.pollPeriod }

/-- A poll of an OFFLINE station is a probe (R63). -/
def Station.pollOrigin (e : Station) : TransactionOrigin :=
  if e.state = .offline then .probe else .poll

/-- Dispatch a poll, or a probe of an OFFLINE station, onto the line, as one step (R63). -/
def State.dispatchPoll (s : State) (address : Nat) : State :=
  let e := s.station address
  let taken := { s with reserved := true }.takeHead .line
  { taken.setStation address (e.dispatched s.limits.probeInterval) with
    context := some
      { origin := e.pollOrigin, ticket := 0, station := address, kind := .poll,
        urgent := false, retryLimit := 0, attempts := 0, collisions := 0, outBuffer := none, outLength := 0,
        answerBuffer := s.freeList.head?, cancelPending := false, lastDetail := none, callBits := none,
        verdict := none }
    pollPointer := address
    consecutive := 0
    stallReported := false }.enterGap

/-- The record of a request completed at dispatch (R64). -/
def Request.completionRecord (r : Request) (state : StationState) : ResultRecord :=
  { ticket := r.ticket, origin := .request, station := r.station, kind := r.kind,
    outcome := if state = .disabled then .stationDisabled else .stationOffline,
    answerKind := none, attempts := 0, collisions := 0, detail := none, buffer := none, length := 0,
    refusal := none, cancelRequested := false, stationLost := false, stamp := 0 }

/-- Complete a request whose station is OFFLINE or DISABLED without line activity (R64, R133). -/
def State.completeAtDispatch (s : State) (r : Request) : State :=
  let removed := (s.removeRequest r.ticket).changeOwner? r.outBuffer .queued .free
  { removed.post (r.completionRecord (s.station r.station).state) with stallReported := false }

/-! ## The look (R57, R58) -/

/-- Work is waiting: a queued record that is not holding, or a station due, whatever the state of the pool (R58). -/
def State.workWaiting (s : State) : Bool :=
  s.queue.any (·.holdUntil.isNone) || s.dueStation.isSome

/-- A look that finds no slot free (R58). -/
def State.stalledLook (s : State) : State :=
  if s.workWaiting then
    { s with
      stallActive := true
      stallReported := true
      events := if s.stallReported then s.events else s.events.raise .stall }
  else { s with stallActive := false }

/-- The look, with the fresh choices that follow completions at dispatch; each completion removes a record, so one
more than the records queued is fuel enough (R58, R61, R64). -/
def State.lookWith (s : State) (fuel : Nat) : State :=
  match fuel with
  | 0 => s
  | n + 1 =>
    if Config.resultCapacity ≤ s.results.length then s.stalledLook
    else
      let free := { s with stallActive := false }
      match free.choose with
      | .poll a => free.dispatchPoll a
      | .request r =>
        if free.completesAtDispatch r then (free.completeAtDispatch r).lookWith n else free.dispatchRequest r
      | .nothing => free

/-- Whether the Dispatcher looks at an arrival: RUNNING, IDLE and no transaction in flight (R57). -/
def State.canLook (s : State) : Bool :=
  s.mode == .running && s.phase == .idle && s.context.isNone

/-- An occasion for the Dispatcher to look; the look is made in the step of its occasion (R57, log entry 7). -/
def State.look (s : State) : State :=
  if s.canLook then s.lookWith (s.queue.length + 1) else s

end Sys2Proof.Machine
end

