-- ==== Sys2Proof/Machine/Transactions.lean ====
section
/-! DEFINITION. How a transaction goes on and ends: the sending of the call, the collision, the answer, the verdict
and what it decides (chapters 1, 4 and 5). -/

namespace Sys2Proof.Machine

/-! ## Sending the call (R89) -/

/-- The call bits of a transaction at its first start bit (R16, R89). -/
def Context.decideCallBits (c : Context) (e : Station) : CallBits :=
  if c.station = 0 then { syncSent := false, toggle := false, ack := false }
  else if c.origin = .probe ∨ e.synced = false then { syncSent := true, toggle := false, ack := true }
  else { syncSent := false, toggle := e.callToggle, ack := e.lastReport }

/-- The characters of the call of a transaction: the telegram of R5, once its call bits are fixed (R89). -/
def State.callTelegram (s : State) (c : Context) (bits : CallBits) : List Byte :=
  telegram (callAddress c.station) (callControl c.kind bits) (s.payload c.outBuffer c.outLength)

/-- The sync values of the toggles: call toggle 0 and last-report toggle 1 (R16). -/
def Station.syncToggles (e : Station) : Station :=
  { e with callToggle := false, lastReport := true }

/-- The first start bit of a call goes onto TXD: the call bits are fixed if they are absent, a synchronising call sets
the entry's toggles to their sync values, and the address character is sent (R16, R89). -/
def State.beginCall (s : State) : State :=
  match s.context with
  | none => s
  | some c =>
    let bits := c.callBits.getD (c.decideCallBits (s.station c.station))
    let synced := if bits.syncSent then s.setStation c.station (s.station c.station).syncToggles else s
    { synced with
      context := some { c with callBits := some bits }
      tx := .sending 0 ((s.callTelegram c bits).getD 0 0) true false
      timer := LineTimer.off }

/-- The telegram-gap timer reaches 0: CALLING begins with DE asserted; with a lead of 0 the first start bit goes out
on entry (R88, R89). -/
def State.enterCalling (s : State) : State :=
  let lead := { s with phase := .calling, de := true, tx := .lead }.loadBits .deLead s.lineConfig.deLead
  if s.lineConfig.deLead = 0 then lead.beginCall else lead

/-- The call is complete: DE is released, attempts so far rises by 1, and the phase becomes WAITING, or SETTLING for a
broadcast (R89). -/
def State.completeCall (s : State) : State :=
  match s.context with
  | none => s
  | some c =>
    let sent := { s.releaseLine with context := some { c with attempts := c.attempts + 1 } }
    if c.station = 0 then sent.enterSettling
    else { sent with phase := .waiting }.loadCharacters .answer s.lineConfig.answerTimeout

/-- The stop bit of character `index` ends with its echo matched: the next character follows back to back, or the DE
trail after Check B; a trail of 0 completes the call at once (R1, R89, log entry 9). -/
def State.sendNext (s : State) (index : Nat) : State :=
  match s.context with
  | none => s
  | some c =>
    let characters := s.callTelegram c (c.callBits.getD (c.decideCallBits (s.station c.station)))
    if index + 1 < characters.length then
      { s with tx := .sending (index + 1) (characters.getD (index + 1) 0) false false }
    else
      let trail := { s with tx := .trail }.loadBits .deTrail s.lineConfig.deTrail
      if s.lineConfig.deTrail = 0 then trail.completeCall else trail

/-- What TXD carries: the frame of the character being sent, and mark otherwise (R1). -/
def State.txdFrame (s : State) : List Bool :=
  match s.tx with
  | .sending _ data mark _ => frameBits s.lineConfig.parity data mark
  | .quiet | .lead | .trail => [true]

/-! ## The collision (R91) -/

/-- How the fourth collision ends a request or a broadcast (R91): a request CONFLICT, or CANCELLED if a cancel is pending; a
broadcast CONFLICT, whether a cancel is pending or not. R54 and R55 say CANCELLED of every collision with a cancel
pending; the broadcast's words in R91 are the narrower rule, in the chapter that owns the ending (DEDUCED, log entry
25). -/
def Context.limitOutcome (c : Context) : ResultOutcome :=
  if c.cancelPending ∧ c.station ≠ 0 then .cancelled else .conflict

/-- A collision: DE is released at once, the collisions rise by 1, and the transaction ends or waits in HOLDOFF to be
resent (R91). In DRAINING an ending makes the mode STOPPED in the same step (R145). -/
def State.collide (s : State) : State :=
  match s.context with
  | none => s
  | some c =>
    let counted := { c with collisions := c.collisions + 1 }
    let held := { s.releaseLine with context := some counted }.enterHoldoff
    if Config.collisionLimit ≤ counted.collisions then
      let raised := { held.raise .conflict with conflicts := satInc Config.lineCounterCap held.conflicts }
      (raised.closeEarly counted c.limitOutcome false true).endDrain
    else if c.cancelPending then (held.closeEarly counted .cancelled false true).endDrain
    else held

/-! ## The answer (R93 to R97) -/

/-- The start of RECEIVING: the answer timer stops, the accumulators are reset, and in an attempt after the
transaction's first the answer buffer is cleared; an earlier attempt has left a failure detail (R94, log entry 10). -/
def State.beginReception (s : State) : State :=
  let receiving := { s with phase := .receiving, timer := LineTimer.off, reception := Reception.fresh }
  match s.context with
  | some { answerBuffer := some b, lastDetail := some _, .. } => receiving.clearBuffer b
  | _ => receiving

/-- The attempt is judged bad: the detail becomes the current verdict and the last failure detail (R94). -/
def Context.fail (c : Context) (d : Detail) : Context :=
  { c with verdict := some (.badAnswer d), lastDetail := some d }

/-- The character tests, made first on each character: framing, then parity, then the mark bit (R94). -/
def Delivered.test (c : Delivered) (address : Bool) : Option Detail :=
  if !c.framingOk then some .framing
  else if !c.parityOk then some .parity
  else if c.mark != address then some .markMisplaced
  else none

/-- The field test of the character's position (R94). -/
def Reception.test (r : Reception) (c : Context) (data : Byte) : Option Detail :=
  match r.taken with
  | 0 =>
    if !answerDirection data then some .wrongDirection
    else if addressStation data ≠ c.station then some .wrongStation
    else none
  | 2 => if 32 < data.toNat then some .lengthRange else none
  | _ => none

/-- What is kept of a character that has passed its tests (R9, R94). -/
def Reception.keep (r : Reception) (data : Byte) : Reception :=
  let both := { r with taken := r.taken + 1, sum := r.sum + data, exclusiveOr := r.exclusiveOr ^^^ data }
  match r.taken with
  | 0 => { r with taken := 1 }
  | 1 => { both with control := data }
  | 2 => { both with length := data.toNat }
  | n + 3 =>
    if n < r.length then { both with firstPayload := if n = 0 then data else r.firstPayload }
    else { r with taken := r.taken + 1, sum := r.sum + data }

/-- The closing tests, made when Check B has passed its character tests (R95). -/
def Reception.close (r : Reception) (call : CallKind) (checkBValue : Byte) : Verdict :=
  if r.sum ≠ 0 ∨ r.exclusiveOr ≠ checkBValue then .badAnswer .check
  else if !controlHighClear r.control then .badAnswer .wrongKind
  else
    match answerKindOf r.control with
    | none => .badAnswer .wrongKind
    | some k =>
      if !k.validAfter call then .badAnswer .wrongKind
      else if !k.lengthAllowed r.length then .badAnswer .lengthRange
      else .valid k r.length (r.control.getLsbD 4) (if k = .refuse then some r.firstPayload else none)

/-- The detail of a verdict, for the last failure detail (R84). -/
def Verdict.detail : Verdict → Option Detail
  | .valid _ _ _ _ => none
  | .noAnswer => some .silent
  | .badAnswer d => some d

/-- Record the verdict of an attempt (R93, R95). -/
def Context.judge (c : Context) (v : Verdict) : Context :=
  { c with verdict := some v, lastDetail := if v.detail.isSome then v.detail else c.lastDetail }

/-- Run the character-gap timer after a delivered character (R96, R97). -/
def State.awaitCharacter (s : State) : State :=
  s.loadCharacters .characterGap s.lineConfig.characterGap

/-- Store a payload byte in the answer buffer, if there is one (R8, R94). -/
def State.storePayload (s : State) (c : Context) (data : Byte) : State :=
  match c.answerBuffer with
  | none => s
  | some b => if 3 ≤ s.reception.taken then s.writeBuffer b (s.reception.taken - 3) data else s

/-- A character of the answer, delivered in RECEIVING: once the attempt has failed it is not interpreted (R97);
otherwise it is tested and kept, and Check B brings the closing tests (R94, R95). -/
def State.answerCharacter (s : State) (d : Delivered) : State :=
  match s.context with
  | none => s
  | some c =>
    if c.verdict.isSome then s.awaitCharacter
    else
      let r := s.reception
      let failure := match d.test (r.taken == 0) with
        | some x => some x
        | none => r.test c d.data
      match failure with
      | some x => { s with context := some (c.fail x) }.awaitCharacter
      | none =>
        if r.taken < 3 ∨ r.taken < r.length + 4 then
          let stored := if r.taken < r.length + 3 then s.storePayload c d.data else s
          { stored with reception := r.keep d.data }.awaitCharacter
        else { s with context := some (c.judge (r.close c.kind d.data)) }.enterSettling

/-! ## The verdict takes effect (R99) -/

/-- The entry of a station once the Station Table has taken a verdict (R17, R21 to R26). -/
def State.entryAfter (s : State) (c : Context) (v : Verdict) : Station :=
  let e := s.station c.station
  match v with
  | .valid k _ _ _ => e.takeValid k ((c.callBits.map CallBits.syncSent).getD false)
  | .noAnswer | .badAnswer _ => e.takeFailure s.limits.offlineThreshold s.limits.probeInterval

/-- End a request or broadcast whose verdict has taken effect (R100, R102, R103). -/
def State.endRequest (s : State) (c : Context) (r : ResultRecord) : State :=
  s.close c (some r) (c.clearsSync true)

/-- Return a request to the queue to wait out a hold (R65). -/
def State.busyReturn (s : State) (c : Context) : State :=
  let record : Request :=
    { ticket := c.ticket, station := c.station, kind := c.kind, urgent := c.urgent, retryLimit := c.retryLimit,
      outBuffer := c.outBuffer, outLength := c.outLength, attemptsMade := c.attempts,
      holdUntil := some (s.timeCounter + BitVec.ofNat 16 s.limits.busyDelay) }
  let carried := (s.changeOwner? c.outBuffer .line .queued).changeOwner? c.answerBuffer .line .free
  { carried with queue := placeAtHead s.queue record, reserved := false, context := none }

/-- Attempts remain: fewer than the retry limit plus one have been made (R65, R100). -/
def Context.attemptsRemain (c : Context) : Bool :=
  decide (c.attempts < c.retryLimit + 1)

/-- A valid BUSY answer (R54, R65, R66). -/
def State.decideBusy (s : State) (c : Context) : State :=
  if c.cancelPending then s.endRequest c { c.record .cancelled with answerKind := some .busy }
  else if c.attemptsRemain ∧ s.queue.length < Config.queueCapacity then s.busyReturn c
  else s.endRequest c { c.record .stationBusy with answerKind := some .busy }

/-- A failed attempt of a request: the first row of R100 that applies. A retry keeps the context but for the current
verdict (R101). -/
def State.decideFailure (s : State) (c : Context) (outcome : ResultOutcome) (lost : Bool) : State :=
  if lost then
    s.endRequest c { c.record (if c.cancelPending then .cancelled else outcome) with stationLost := true }
  else if c.cancelPending then s.endRequest c (c.record .cancelled)
  else if c.attemptsRemain then { s with context := some { c with verdict := none } }
  else s.endRequest c (c.record outcome)

/-- The decision on a request to a station (R100, R103). The closing tests judge REPORT and NOTHING after a request
BAD_ANSWER (R12, R95), so no verdict here holds one; a state that held one all the same is decided as that
BAD_ANSWER. -/
def State.decideRequest (s : State) (c : Context) (v : Verdict) (lost : Bool) : State :=
  match v with
  | .valid .accept _ _ _ =>
    s.endRequest c { c.record .done with answerKind := some .accept, cancelRequested := c.cancelPending }
  | .valid .data length _ _ =>
    s.endRequest c
      { c.record .done with
        answerKind := some .data, buffer := c.answerBuffer, length := length, cancelRequested := c.cancelPending }
  | .valid .refuse _ _ refusal =>
    s.endRequest c
      { c.record .refused with answerKind := some .refuse, refusal := refusal, cancelRequested := c.cancelPending }
  | .valid .busy _ _ _ => s.decideBusy c
  | .noAnswer => s.decideFailure c .noAnswer lost
  | .badAnswer _ | .valid .report _ _ _ | .valid .nothing _ _ _ => s.decideFailure c .badAnswer lost

/-- Count a REPORT that is a duplicate or set aside (R38, R79). -/
def Station.countDuplicate (e : Station) : Station :=
  { e with duplicateReports := satInc Config.counterCap e.duplicateReports }

/-- The judgement of a valid REPORT against the entry as it stands once the table has taken the verdict: set aside,
new or duplicate (R77, R78, R79). -/
def State.judgeReport (s : State) (c : Context) (length : Nat) (ack : Bool) : State :=
  let e := s.station c.station
  if e.synced ∧ ack ≠ e.lastReport then
    (s.setStation c.station { e with lastReport := ack }).close c (some (c.reportRecord length)) false
  else (s.setStation c.station e.countDuplicate).close c none false

/-- The decision on a poll or probe (R77, R79). -/
def State.decidePoll (s : State) (c : Context) (v : Verdict) : State :=
  match v with
  | .valid .report length ack _ => s.judgeReport c length ack
  | .valid .accept _ _ _ | .valid .data _ _ _ | .valid .busy _ _ _ | .valid .refuse _ _ _
  | .valid .nothing _ _ _ | .noAnswer | .badAnswer _ => s.close c none false

/-- The verdict of the attempt takes effect: the Station Table takes it, then the transaction is decided (R99). A
broadcast has no verdict and ends DONE. -/
def State.takeVerdict (s : State) : State :=
  match s.context with
  | none => s
  | some c =>
    if c.station = 0 then s.endRequest c { c.record .done with cancelRequested := c.cancelPending }
    else
      match c.verdict with
      | none => s
      | some v =>
        let before := s.station c.station
        let after := s.entryAfter c v
        let told := s.setStation c.station after
        match c.origin with
        | .request => told.decideRequest c v (before.lostBy after)
        | .poll | .probe => told.decidePoll c v

end Sys2Proof.Machine
end

