-- ==== Sys2Proof/Machine/Commands.lean ====
section
/-! DEFINITION. The Command Unit and the sixteen commands of R176: handing over, the immediate work of each command,
and its completion (chapter 10; the owning chapters for each command's work). -/

namespace Sys2Proof.Machine

/-! ## Taking a command -/

/-- What the immediate work of a command leaves: the state, the result code and the replies (R171, R172). -/
structure Handled where
  state : State
  code : ResultCode
  replies : Replies
  deriving DecidableEq, Repr

/-- A command refused with 0 in every reply, no state changed (R175). -/
def State.refuse (s : State) (code : ResultCode) : Handled :=
  { state := s, code := code, replies := Replies.zero }

/-- A write to COMMAND while the Command Unit is BUSY is discarded (R173). -/
def State.discardCommand (s : State) : State :=
  s.raise .commandOverrun

/-- Hand a command over, in READY: its code is taken, the arguments are latched, its immediate work is done, and the
unit is BUSY until the completion (R171). -/
def State.runCommand (s : State) (code : Byte) (work : State → Handled) : State :=
  let h := work { s with commandCode := code, latch := s.args }
  { h.state with unit := .executing h.code h.replies }

/-- A write of a command's code to COMMAND: taken in READY, discarded in BUSY, ignored while RESET# is held low (R153,
R171, R173). -/
def State.hostCommand (s : State) (code : Byte) (work : State → Handled) : State :=
  if s.resetHeld then s
  else
    match s.unit with
    | .ready => s.runCommand code work
    | .executing _ _ | .initialising => s.discardCommand

/-! ## Buffer Pool -/

/-- ALLOCATE (R119). -/
def allocateWork (s : State) : Handled :=
  match s.freeList with
  | [] => { state := s, code := .poolEmpty, replies := { Replies.zero with reply0 := 0xFF } }
  | b :: rest => { state := s.takeHead .host, code := .ok, replies := Replies.of b rest.length 0 0 }

/-- RELEASE (R119). -/
def releaseWork (s : State) : Handled :=
  let given := s.latch.arg0
  let b := given.toNat
  if 63 < b then
    { state := s, code := .badArgument,
      replies := { reply0 := given, reply1 := byteOf s.freeList.length, reply2 := 0xFF, reply3 := 0 } }
  else if s.owner b = some .host then
    let freed := s.changeOwner b .host .free
    { state := freed.look, code := .ok, replies := Replies.of b freed.freeList.length 0 0 }
  else
    { state := s, code := .notHost,
      replies := Replies.of b s.freeList.length (((s.owner b).map Ownership.code).getD 0) 0 }

/-! ## Request Queue -/

/-- The tests of SUBMIT's arguments against each other (R46). -/
def submitArgumentsOk (a : Args) : Bool :=
  decide (a.arg0.toNat ≤ 31) && decide (1 ≤ a.arg1.toNat) && decide (a.arg1.toNat ≤ 3) &&
  (a.arg0 != 0 || a.arg1 == 1) && decide (a.arg3.toNat ≤ 32) && decide (a.arg4.toNat ≤ 7) &&
  decide (a.arg5.toNat ≤ 1) && (decide (a.arg2.toNat < 64) || a.arg2 == 0xFF) &&
  (a.arg1 != 2 || (a.arg2 == 0xFF && a.arg3 == 0)) &&
  (a.arg1 != 3 || (a.arg3 != 0 && a.arg2 != 0xFF)) &&
  (a.arg1 != 1 || a.arg3 == 0 || a.arg2 != 0xFF)

/-- The out buffer a SUBMIT names, if any, is HOST (R47). -/
def State.submitBufferOk (s : State) (a : Args) : Bool :=
  match bufferOfArg a.arg2 with
  | some b => s.owner b == some .host
  | none => true

/-- The record of an accepted SUBMIT (R45, R48). -/
def submitRecord (a : Args) (ticket : Nat) : Request :=
  { ticket := ticket, station := a.arg0.toNat, kind := (CallKind.ofArg a.arg1.toNat).getD .write,
    urgent := a.arg5 == 1, retryLimit := a.arg4.toNat, outBuffer := bufferOfArg a.arg2,
    outLength := a.arg3.toNat, attemptsMade := 0, holdUntil := none }

/-- The queueing of an accepted SUBMIT: the ticket, the record at the tail of its class, and the out buffer from HOST
to QUEUED (R44, R48). -/
def State.enqueue (s : State) (a : Args) : State :=
  let ticket := s.freeTicket 255 s.ticketCounter
  let carried := s.changeOwner? (bufferOfArg a.arg2) .host .queued
  { carried with
    queue := placeAtTail s.queue (submitRecord a ticket)
    ticketCounter := nextTicket ticket }

/-- SUBMIT (R45 to R48). -/
def submitWork (s : State) : Handled :=
  if !submitArgumentsOk s.latch then s.refuse .badArgument
  else if !s.submitBufferOk s.latch then s.refuse .notHost
  else if Config.queueCapacity ≤ s.queue.length then s.refuse .queueFull
  else
    let queued := s.enqueue s.latch
    { state := queued.look, code := .ok,
      replies := Replies.of (s.freeTicket 255 s.ticketCounter) queued.queue.length 0 0 }

/-- CANCEL of a queued ticket (R51). -/
def State.cancelQueued (s : State) (r : Request) : State :=
  ((s.removeRequest r.ticket).changeOwner? r.outBuffer .queued .free).look

/-- CANCEL of the in-flight request in GAP or HOLDOFF: it ends at once; from GAP the phase returns to IDLE, in HOLDOFF
the holdoff runs on with no transaction (R52). -/
def State.cancelWaiting (s : State) (c : Context) : State :=
  let closed := s.closeEarly c .cancelled false true
  if s.phase = .gap then closed.enterIdle.endDrain.look else closed.endDrain

/-- CANCEL (R49 to R53). -/
def cancelWork (s : State) : Handled :=
  let t := s.latch.arg0.toNat
  if t = 0 then s.refuse .badArgument
  else
    match s.queue.find? (·.ticket == t) with
    | some r => { state := s.cancelQueued r, code := .cancelled, replies := Replies.of t 0 0 0 }
    | none =>
      match s.context with
      | none => { state := s, code := .notFound, replies := Replies.of t 0 0 0 }
      | some c =>
        if c.origin = .request ∧ c.ticket = t then
          if s.phase = .gap ∨ s.phase = .holdoff then
            { state := s.cancelWaiting c, code := .cancelled, replies := Replies.of t 1 0 0 }
          else
            { state := { s with context := some { c with cancelPending := true } }, code := .cancelPending,
              replies := Replies.of t 1 0 0 }
        else { state := s, code := .notFound, replies := Replies.of t 0 0 0 }

/-! ## Result Queue -/

/-- TAKE (R135, R136). -/
def takeWork (s : State) : Handled :=
  match s.results with
  | [] => { state := s, code := .empty, replies := { Replies.zero with reply2 := 0xFF } }
  | r :: rest =>
    { state :=
        ({ s with results := rest, taken := Taken.ofRecord r }.changeOwner? r.buffer .result .host).look
      code := .ok
      replies :=
        { reply0 := byteOf r.ticket, reply1 := byteOf r.outcome.code, reply2 := showBuffer r.buffer,
          reply3 := byteOf rest.length } }

/-! ## Line modes -/

/-- The replies of START and STOP: the line mode code after the command (R143, R144). -/
def State.modeReplies (s : State) : Replies :=
  Replies.of s.mode.code 0 0 0

/-- START (R143). -/
def startWork (s : State) : Handled :=
  if s.mode ≠ .stopped then { state := s, code := .wrongMode, replies := s.modeReplies }
  else if s.lineConfig.answerTimeout < s.lineConfig.characterGap + 1 then
    { state := s, code := .badConfig, replies := s.modeReplies }
  else
    let running := { s with mode := .running }
    { state := running.look, code := .ok, replies := running.modeReplies }

/-- STOP by the mode in which it is taken (R144). -/
def State.stopLine (s : State) : State :=
  match s.mode with
  | .stopped => s.raise .lineStopped
  | .running => if s.context.isSome then { s with mode := .draining, stallActive := false } else s.becomeStopped
  | .draining => if s.context.isSome then s else s.becomeStopped

/-- STOP (R144). -/
def stopWork (s : State) : Handled :=
  { state := s.stopLine, code := .ok, replies := s.stopLine.modeReplies }

/-- ABORT: DE is released, the transaction is closed, the phase becomes IDLE and the mode STOPPED (R146). -/
def abortWork (s : State) : Handled :=
  let released := s.releaseLine
  match s.context with
  | none => { state := released.becomeStopped, code := .ok, replies := Replies.zero }
  | some c =>
    { state := (released.closeEarly c .aborted c.cancelPending false).becomeStopped
      code := .ok
      replies := if c.origin = .request then Replies.of 0 c.ticket 1 0 else Replies.zero }

/-! ## Line configuration and limits -/

/-- The ranges of SET_LINE's arguments (R109, R110). -/
def lineArgumentsOk (a : Args) : Bool :=
  decide (a.arg0.toNat ≤ 7) && decide (a.arg1.toNat ≤ 2) && decide (2 ≤ a.arg2.toNat) &&
  decide (1 ≤ a.arg3.toNat) && decide (a.arg3.toNat ≤ 15) && decide (1 ≤ a.arg4.toNat) &&
  decide (a.arg4.toNat ≤ 15) && decide (a.arg5.toNat ≤ 7) && decide (a.arg6.toNat ≤ 7) &&
  decide (8 ≤ a.arg7.toNat)

/-- The line configuration that SET_LINE's arguments give (R110). -/
def LineConfig.ofArgs (a : Args) : LineConfig :=
  { bitRate := a.arg0.toNat, parity := Parity.ofArg a.arg1.toNat, answerTimeout := a.arg2.toNat,
    characterGap := a.arg3.toNat, telegramGap := a.arg4.toNat, deLead := a.arg5.toNat, deTrail := a.arg6.toNat,
    holdoff := a.arg7.toNat }

/-- SET_LINE (R110). -/
def setLineWork (s : State) : Handled :=
  if !lineArgumentsOk s.latch then s.refuse .badArgument
  else if s.mode ≠ .stopped then s.refuse .wrongMode
  else { state := { s with lineConfig := LineConfig.ofArgs s.latch }, code := .ok, replies := Replies.zero }

/-- A page of GET_LINE (R111). -/
def State.linePage (s : State) (page : Nat) : Replies :=
  match page with
  | 0 => Replies.of s.lineConfig.bitRate s.lineConfig.parity.code s.lineConfig.answerTimeout s.lineConfig.characterGap
  | 1 => Replies.of s.lineConfig.telegramGap s.lineConfig.deLead s.lineConfig.deTrail s.lineConfig.holdoff
  | _ =>
    { reply0 := lowByte s.strayCharacters, reply1 := highByte s.strayCharacters, reply2 := byteOf s.conflicts,
      reply3 := byteOf s.breaks }

/-- GET_LINE (R111). -/
def getLineWork (s : State) : Handled :=
  let page := s.latch.arg0.toNat
  let clear := s.latch.arg1 == 1
  if 2 < page ∨ 1 < s.latch.arg1.toNat ∨ (clear = true ∧ page ≠ 2) then s.refuse .badArgument
  else
    { state := if clear then { s with strayCharacters := 0, conflicts := 0, breaks := 0 } else s
      code := .ok
      replies := s.linePage page }

/-- The ranges of SET_LIMITS's arguments (R148). -/
def limitArgumentsOk (a : Args) : Bool :=
  decide (1 ≤ a.arg0.toNat) && decide (a.arg0.toNat ≤ 15) && decide (1 ≤ a.arg1.toNat) &&
  decide (a.arg1.toNat ≤ 15) && decide (1 ≤ a.arg2.toNat) && decide (1 ≤ a.arg3.toNat) &&
  decide (1 ≤ a.arg4.toNat) && decide (a.arg4.toNat ≤ 24)

/-- The limits that SET_LIMITS's arguments give (R148). -/
def Limits.ofArgs (a : Args) : Limits :=
  { offlineThreshold := a.arg0.toNat, pollShare := a.arg1.toNat, probeInterval := a.arg2.toNat,
    busyDelay := a.arg3.toNat, watermark := a.arg4.toNat }

/-- SET_LIMITS (R148). -/
def setLimitsWork (s : State) : Handled :=
  if !limitArgumentsOk s.latch then s.refuse .badArgument
  else { state := { s with limits := Limits.ofArgs s.latch }, code := .ok, replies := Replies.zero }

/-- A page of GET_LIMITS (R149). -/
def State.limitsPage (s : State) (page : Nat) : Replies :=
  match page with
  | 0 => Replies.of s.limits.offlineThreshold s.limits.pollShare s.limits.probeInterval s.limits.busyDelay
  | _ => Replies.of s.limits.watermark 0 0 0

/-- GET_LIMITS (R149). -/
def getLimitsWork (s : State) : Handled :=
  let page := s.latch.arg0.toNat
  if 1 < page then s.refuse .badArgument
  else { state := s, code := .ok, replies := s.limitsPage page }

/-! ## Station Table -/

/-- The tests of SET_STATION's arguments (R29). -/
def stationArgumentsOk (a : Args) : Bool :=
  decide (1 ≤ a.arg0.toNat) && decide (a.arg0.toNat ≤ 31) && decide (a.arg1.toNat ≤ 2) && decide (a.arg3.toNat ≤ 3)

/-- The entry after an accepted SET_STATION (R30 to R34). -/
def State.configuredEntry (s : State) (a : Args) : Station :=
  (s.station a.arg0.toNat).configure a.arg1.toNat a.arg2.toNat (a.arg3.getLsbD 0) (a.arg3.getLsbD 1)

/-- SET_STATION (R28 to R34). A change of the state or of the poll period is an occasion to look (R57). -/
def setStationWork (s : State) : Handled :=
  if !stationArgumentsOk s.latch then s.refuse .badArgument
  else
    let address := s.latch.arg0.toNat
    let before := s.station address
    let after := s.configuredEntry s.latch
    let written := s.setStation address after
    { state := if before.state = after.state ∧ before.pollPeriod = after.pollPeriod then written else written.look
      code := .ok
      replies := Replies.of address after.state.code after.failCount 0 }

/-- A page of GET_STATION (R39). -/
def Station.page (e : Station) (page : Nat) : Replies :=
  match page with
  | 0 => Replies.of e.state.code e.failCount e.pollPeriod e.sequenceByte
  | 1 =>
    { reply0 := lowByte e.answersTaken, reply1 := highByte e.answersTaken, reply2 := lowByte e.failedAttempts,
      reply3 := highByte e.failedAttempts }
  | _ =>
    { reply0 := lowByte e.duplicateReports, reply1 := highByte e.duplicateReports, reply2 := lowByte e.lateCharacters,
      reply3 := highByte e.lateCharacters }

/-- GET_STATION (R39). -/
def getStationWork (s : State) : Handled :=
  let address := s.latch.arg0.toNat
  let page := s.latch.arg1.toNat
  if address = 0 ∨ 31 < address ∨ 2 < page then s.refuse .badArgument
  else { state := s, code := .ok, replies := (s.station address).page page }

/-- The addresses 1..31, lowest first. -/
def stationAddresses : List Nat :=
  (List.range 31).map (· + 1)

/-- The lowest address in the change set (R37). -/
def State.lowestChanged (s : State) : Option Nat :=
  stationAddresses.find? fun a => (s.station a).changed

/-- NEXT_CHANGE (R37). -/
def nextChangeWork (s : State) : Handled :=
  match s.lowestChanged with
  | none => s.refuse .none
  | some a =>
    let e := s.station a
    { state := s.setStation a { e with changed := false }, code := .ok,
      replies := Replies.of a e.state.code e.failCount 0 }

/-! ## RESET and unknown codes -/

/-- The reset step of the RESET command: the line configuration, the limits, the poll periods and the DISABLED states
are retained, the receiver and the break detector keep their state, everything else is reset, and initialisation
begins with COMMAND reading 0x10 (R41, R85, R154, R170). -/
def State.softReset (s : State) : State :=
  { State.reset with
    port := s.port.dropAccess
    readData := s.readData
    commandCode := 0x10
    stations := s.stations.map Station.softReset
    receiver := s.receiver
    lineConfig := s.lineConfig
    limits := s.limits
    pending := s.pending }

/-- A write of the code of RESET to COMMAND (R154, R173). -/
def State.resetCommand (s : State) : State :=
  if s.resetHeld then s
  else
    match s.unit with
    | .ready => s.softReset
    | .executing _ _ | .initialising => s.discardCommand

/-- The work of a code that names no command (R174). -/
def unknownWork (s : State) : Handled :=
  s.refuse .unknownCommand

/-- The immediate work that a code selects, RESET apart (R174, R176). -/
def workOf (code : Byte) : State → Handled :=
  match code.toNat with
  | 0x01 => allocateWork
  | 0x02 => releaseWork
  | 0x03 => submitWork
  | 0x04 => cancelWork
  | 0x05 => takeWork
  | 0x06 => startWork
  | 0x07 => stopWork
  | 0x08 => abortWork
  | 0x09 => setLineWork
  | 0x0A => getLineWork
  | 0x0B => setLimitsWork
  | 0x0C => getLimitsWork
  | 0x0D => setStationWork
  | 0x0E => getStationWork
  | 0x0F => nextChangeWork
  | _ => unknownWork

/-- A write of any code to COMMAND (R171, R173, R174, R176). -/
def State.writeCommand (s : State) (code : Byte) : State :=
  if code = 0x10 then s.resetCommand else s.hostCommand code (workOf code)

/-- The command in progress completes: CMD_RESULT and the replies are written, the unit becomes READY and
COMMAND_DONE is raised (R172). -/
def State.completeCommand (s : State) : State :=
  match s.unit with
  | .executing code replies => { s with unit := .ready, cmdResult := code, replies := replies }.raise .commandDone
  | .ready | .initialising => s

/-! ## The meanings -/

/-- ALLOCATE (R119). -/
def execAllocate (s : State) : Host.Outcome State Fault Refusal :=
  .next (s.hostCommand 0x01 allocateWork)

/-- RELEASE (R119). -/
def execRelease (s : State) : Host.Outcome State Fault Refusal :=
  .next (s.hostCommand 0x02 releaseWork)

/-- SUBMIT (R45 to R48). -/
def execSubmit (s : State) : Host.Outcome State Fault Refusal :=
  .next (s.hostCommand 0x03 submitWork)

/-- CANCEL (R49 to R55). -/
def execCancel (s : State) : Host.Outcome State Fault Refusal :=
  .next (s.hostCommand 0x04 cancelWork)

/-- TAKE (R135, R136). -/
def execTake (s : State) : Host.Outcome State Fault Refusal :=
  .next (s.hostCommand 0x05 takeWork)

/-- START (R143). -/
def execStart (s : State) : Host.Outcome State Fault Refusal :=
  .next (s.hostCommand 0x06 startWork)

/-- STOP (R144). -/
def execStop (s : State) : Host.Outcome State Fault Refusal :=
  .next (s.hostCommand 0x07 stopWork)

/-- ABORT (R146). -/
def execAbort (s : State) : Host.Outcome State Fault Refusal :=
  .next (s.hostCommand 0x08 abortWork)

/-- SET_LINE (R110). -/
def execSetLine (s : State) : Host.Outcome State Fault Refusal :=
  .next (s.hostCommand 0x09 setLineWork)

/-- GET_LINE (R111). -/
def execGetLine (s : State) : Host.Outcome State Fault Refusal :=
  .next (s.hostCommand 0x0A getLineWork)

/-- SET_LIMITS (R148). -/
def execSetLimits (s : State) : Host.Outcome State Fault Refusal :=
  .next (s.hostCommand 0x0B setLimitsWork)

/-- GET_LIMITS (R149). -/
def execGetLimits (s : State) : Host.Outcome State Fault Refusal :=
  .next (s.hostCommand 0x0C getLimitsWork)

/-- SET_STATION (R28 to R34). -/
def execSetStation (s : State) : Host.Outcome State Fault Refusal :=
  .next (s.hostCommand 0x0D setStationWork)

/-- GET_STATION (R39). -/
def execGetStation (s : State) : Host.Outcome State Fault Refusal :=
  .next (s.hostCommand 0x0E getStationWork)

/-- NEXT_CHANGE (R37). -/
def execNextChange (s : State) : Host.Outcome State Fault Refusal :=
  .next (s.hostCommand 0x0F nextChangeWork)

/-- RESET (R154). -/
def execReset (s : State) : Host.Outcome State Fault Refusal :=
  .next s.resetCommand

/-- A write to COMMAND of a code that names no command (R174); the code of a command, in a term that is not well
formed, is taken as that command (log entry 5). -/
def execUnknownCommand (code : Byte) (s : State) : Host.Outcome State Fault Refusal :=
  .next (s.writeCommand code)

/-- A write to COMMAND while the unit is BUSY (R173); where the completion was taken first, the unit is READY and the
write is taken as a new command (R160). -/
def execDiscardedCommandWrite (code : Byte) (s : State) : Host.Outcome State Fault Refusal :=
  .next (s.writeCommand code)

/-- The completion of the command in progress (R172). -/
def execCommandCompletion (s : State) : Host.Outcome State Fault Refusal :=
  .next (s.live State.completeCommand)

end Sys2Proof.Machine
end

