-- ==== Sys2Proof/Machine/Window.lean ====
section
/-! DEFINITION. The host window: what each register reads, and the accesses that change state other than a command
(chapter 10; the buffer window of chapter 6; TIME_LO of chapter 8). -/

namespace Sys2Proof.Machine

/-! ## The buffer window (R120 to R122) -/

/-- BUF_SELECT names a buffer (R120). -/
def State.selected (s : State) : Option Nat :=
  if s.bufSelect.toNat < 64 then some s.bufSelect.toNat else none

/-- The ownership of the selected buffer, if BUF_SELECT names one (R121). -/
def State.selectedOwner (s : State) : Option Ownership :=
  s.selected.bind s.owner

/-- A read of BUF_DATA is permitted: the selected buffer is HOST or RESULT (R121). -/
def State.mayRead (s : State) : Bool :=
  s.selectedOwner == some .host || s.selectedOwner == some .result

/-- A write of BUF_DATA is permitted: the selected buffer is HOST (R121). -/
def State.mayWrite (s : State) : Bool :=
  s.selectedOwner == some .host

/-- The byte of FAULT that describes a faulting access: BUF_SELECT modulo 64, bit 6 for a value above 63, bit 7 for a
write (R122). -/
def faultByte (select : Byte) (write : Bool) : Byte :=
  byteOf (select.toNat % 64 + 64 * bitOf (decide (63 < select.toNat)) + 128 * bitOf write)

/-- A faulting access rewrites FAULT and raises ACCESS_FAULT (R122). -/
def State.accessFault (s : State) (write : Bool) : State :=
  { s with faultReg := faultByte s.bufSelect write }.raise .accessFault

/-- Each BUF_DATA access, faulting or not, advances BUF_OFFSET from 31 to 0 (R120, R121). -/
def State.advanceOffset (s : State) : State :=
  { s with bufOffset := s.bufOffset + 1 }

/-- A read of BUF_DATA (R121). -/
def State.readBufData (s : State) : State :=
  if s.mayRead then
    { s with readData := s.bufferByte s.bufSelect.toNat s.bufOffset.toNat }.advanceOffset
  else ({ s with readData := 0 }.accessFault false).advanceOffset

/-- A write of BUF_DATA (R121). -/
def State.writeBufData (s : State) (value : Byte) : State :=
  if s.mayWrite then (s.writeBuffer s.bufSelect.toNat s.bufOffset.toNat value).advanceOffset
  else (s.accessFault true).advanceOffset

/-- A write of BUF_SELECT stores the byte and loads BUF_OFFSET with 0 (R120). -/
def State.writeBufSelect (s : State) (value : Byte) : State :=
  { s with bufSelect := value, bufOffset := 0 }

/-- A write of BUF_OFFSET stores the byte modulo 32 (R120). -/
def State.writeBufOffset (s : State) (value : Byte) : State :=
  { s with bufOffset := value.setWidth 5 }

/-- A read of TIME_LO returns the counter's low byte and snapshots its high byte (R152). -/
def State.readTimeLow (s : State) : State :=
  { s with readData := timeLow s.timeCounter, timeSnapshot := timeHigh s.timeCounter }

/-! ## What registers read -/

/-- The Command Unit is BUSY (R170). -/
def CommandUnit.busy : CommandUnit → Bool
  | .ready => false
  | .executing _ _ | .initialising => true

/-- What STATUS reads (R169). -/
def State.status (s : State) : Byte :=
  byteOf (s.mode.code + 4 * s.phase.code + 32 * bitOf s.unit.busy + 64 * bitOf s.receiver.lineInBreak +
    128 * bitOf s.stallActive)

/-- What a read of BUF_DATA returns (R121). -/
def State.bufDataValue (s : State) : Byte :=
  if s.mayRead then s.bufferByte s.bufSelect.toNat s.bufOffset.toNat else 0

/-- The value that a register reads, by its offset (the register map of section 10.2, R166, R167). A read of
BUF_DATA or TIME_LO also changes state (R168): that is the row's meaning. -/
def State.registerValue (s : State) (offset : Offset) : Byte :=
  match offset.toNat with
  | 0x00 => Config.ident
  | 0x01 => s.status
  | 0x02 => s.eventsA
  | 0x03 => s.eventsB
  | 0x04 => s.enableA
  | 0x05 => s.enableB
  | 0x06 => s.commandCode
  | 0x07 => byteOf s.cmdResult.code
  | 0x10 => s.replies.reply0
  | 0x11 => s.replies.reply1
  | 0x12 => s.replies.reply2
  | 0x13 => s.replies.reply3
  | 0x14 => s.bufSelect
  | 0x15 => s.bufOffset.setWidth 8
  | 0x16 => s.bufDataValue
  | 0x17 => byteOf s.freeList.length
  | 0x18 => byteOf s.queue.length
  | 0x19 => byteOf s.results.length
  | 0x1A => timeLow s.timeCounter
  | 0x1B => s.timeSnapshot
  | 0x1C => s.faultReg
  | n =>
    if 0x08 ≤ n ∧ n ≤ 0x0F then s.args.get (n - 0x08)
    else if 0x20 ≤ n ∧ n ≤ 0x2B then s.taken.get (n - 0x20)
    else 0

/-- What a read access drives on D7..D0: the register's value; while RESET# is held low the window takes no access and
D7..D0 are not driven (R153, R166). -/
def State.readRegister (s : State) (offset : Offset) : Option Byte :=
  if s.resetHeld then none else some (s.registerValue offset)

/-- A read access to an offset of the host window: the value goes onto D7..D0, and BUF_DATA and TIME_LO change state as
their rows do (R166, R168). -/
def State.hostRead (s : State) (offset : Offset) : State :=
  match offset.toNat with
  | 0x16 => s.readBufData
  | 0x1A => s.readTimeLow
  | _ => { s with readData := s.registerValue offset }

/-! ## Writes -/

/-- A write access to an offset of the host window (the register map of section 10.2): a register with a row of its
own takes the write as that row does, ARG0..ARG7 store it, and every other offset ignores it (R167, R171). -/
def State.hostWrite (s : State) (offset : Offset) (value : Byte) : State :=
  match offset.toNat with
  | 0x02 => { s with events := s.events.writeOneToClear .a value }
  | 0x03 => { s with events := s.events.writeOneToClear .b value }
  | 0x04 => s.writeEnable .a value
  | 0x05 => s.writeEnable .b value
  | 0x06 => s.writeCommand value
  | 0x14 => s.writeBufSelect value
  | 0x15 => s.writeBufOffset value
  | 0x16 => s.writeBufData value
  | n => if 0x08 ≤ n ∧ n ≤ 0x0F then { s with args := s.args.set (n - 0x08) value } else s

/-! ## The meanings -/

/-- A write to EVENTS_A or EVENTS_B (R158). -/
def execEventsWrite (bank : EventBank) (value : Byte) (s : State) : Host.Outcome State Fault Refusal :=
  .next (s.live fun s => { s with events := s.events.writeOneToClear bank value })

/-- A write to ENABLE_A or ENABLE_B (R163). -/
def execEnableWrite (bank : EventBank) (value : Byte) (s : State) : Host.Outcome State Fault Refusal :=
  .next (s.live (·.writeEnable bank value))

/-- A write to BUF_SELECT (R120). -/
def execBufSelectWrite (value : Byte) (s : State) : Host.Outcome State Fault Refusal :=
  .next (s.live (·.writeBufSelect value))

/-- A write to BUF_OFFSET (R120). -/
def execBufOffsetWrite (value : Byte) (s : State) : Host.Outcome State Fault Refusal :=
  .next (s.live (·.writeBufOffset value))

/-- A read of BUF_DATA (R121). -/
def execBufDataRead (s : State) : Host.Outcome State Fault Refusal :=
  .next (s.live State.readBufData)

/-- A write to BUF_DATA (R121). -/
def execBufDataWrite (value : Byte) (s : State) : Host.Outcome State Fault Refusal :=
  .next (s.live (·.writeBufData value))

/-- A read of TIME_LO (R152). -/
def execTimeLoRead (s : State) : Host.Outcome State Fault Refusal :=
  .next (s.live State.readTimeLow)

/-- A write to a register with no row of its own (R167). An offset with a row of its own, in a term that is not well
formed, is written as that row writes it (log entry 5). -/
def execRegisterWrite (offset : Offset) (value : Byte) (s : State) : Host.Outcome State Fault Refusal :=
  .next (s.live (·.hostWrite offset value))

end Sys2Proof.Machine
end

