-- ==== Sys2Proof/Machine/Line.lean ====
section
/-! DEFINITION. What arrives on the station line: start bits, characters, breaks and returns to mark, by the line mode
and the line phase (chapters 1 and 5). -/

namespace Sys2Proof.Machine

/-! ## Characters by phase (R4) -/

/-- The character matches the sent one in data value, mark bit, framing and parity (R90). -/
def Delivered.matchesSent (c : Delivered) (data : Byte) (mark : Bool) : Bool :=
  c.clean && c.data == data && c.mark == mark

/-- The echo check, while DE is asserted: the delivered character against the sent one that awaits its echo; any other
character is a collision (R90). -/
def State.echoCheck (s : State) (c : Delivered) : State :=
  match s.tx with
  | .sending i data mark false =>
    if c.matchesSent data mark then { s with tx := .sending i data mark true } else s.collide
  | .sending _ _ _ true | .quiet | .lead | .trail => s.collide

/-- A stray character raises the stray-characters counter (R104, R108). -/
def State.countStray (s : State) : State :=
  { s with strayCharacters := satInc Config.counterCap s.strayCharacters }

/-- A conflict raises CONFLICT and the conflicts counter (R104, R108). -/
def State.countConflict (s : State) : State :=
  { s with conflicts := satInc Config.lineCounterCap s.conflicts }.raise .conflict

/-- A character that is a sign of another master: clean, with mark 1 (R104). -/
def Delivered.isConflict (c : Delivered) : Bool :=
  c.clean && c.mark

/-- A delivered character loads the quiet timer of GAP or HOLDOFF again (R87, R104). -/
def State.reloadQuiet (s : State) : State :=
  match s.phase with
  | .gap => s.enterGap
  | .holdoff => s.enterHoldoff
  | .idle | .calling | .waiting | .receiving | .settling => s

/-- A character in IDLE, GAP or HOLDOFF while RUNNING or DRAINING (R104). -/
def State.unaskedCharacter (s : State) (c : Delivered) : State :=
  if c.isConflict then s.countConflict.enterHoldoff else s.countStray.reloadQuiet

/-- A character while STOPPED: counted, the phase stays IDLE (R108). -/
def State.stoppedCharacter (s : State) (c : Delivered) : State :=
  if c.isConflict then s.countConflict else s.countStray

/-- A late character, in SETTLING: counted at its station, or as a stray after a broadcast, and the settle timer is
loaded again (R98, R38, R108). -/
def State.lateCharacter (s : State) : State :=
  match s.context with
  | none => s
  | some c =>
    let e := s.station c.station
    let counted :=
      if c.station = 0 then s.countStray
      else s.setStation c.station { e with lateCharacters := satInc Config.counterCap e.lateCharacters }
    counted.enterSettling

/-- A delivered character, by line mode and line phase (R4). A character that comes to its delivery in WAITING began
before DE was released; it is the first of the answer (log entry 11). -/
def State.takeCharacter (s : State) (c : Delivered) : State :=
  if s.de then s.echoCheck c
  else if s.mode = .stopped then s.stoppedCharacter c
  else
    match s.phase with
    | .idle | .gap | .holdoff => s.unaskedCharacter c
    | .waiting => s.beginReception.answerCharacter c
    | .receiving => s.answerCharacter c
    | .settling => s.lateCharacter
    | .calling => s

/-! ## The receiver (R4, R106) -/

/-- The receiver can deliver a character: it is not waiting for RXD to return to mark. -/
def Receiver.canDeliver (r : Receiver) : Bool :=
  !r.heldSpace && !r.awaitMark && !r.lineInBreak

/-- A start bit can be confirmed (R4). -/
def Receiver.canStart (r : Receiver) : Bool :=
  r.inCharacter.isNone && r.canDeliver

/-- The parity at which the character in progress is checked: the one in force at its start bit (R110). -/
def State.rxParity (s : State) : Parity :=
  (s.receiver.inCharacter.map RxFormat.parity).getD s.lineConfig.parity

/-- The four items that the receiver delivers, from the sampled bits (R2, R4). -/
def State.judgeSamples (s : State) (data : Byte) (mark parity stop : Bool) : Delivered :=
  { data := data, mark := mark, parityOk := s.rxParity.passes data mark parity, framingOk := stop }

/-- A space character is held back until RXD returns to mark or a break is detected (R106). -/
def State.holdSpace (s : State) : State :=
  let held := { s with receiver := { s.receiver with inCharacter := none, heldSpace := true } }
  if s.phase = .waiting then held.beginReception else held

/-- The receiver takes the stop-bit sample of a character. Outside CALLING a space character is held back (R106); any
other is handled at once, and after a framing failure the receiver awaits mark (R4). -/
def State.deliver (s : State) (data : Byte) (mark parity stop : Bool) : State :=
  if s.receiver.canDeliver then
    if s.rxParity.isSpaceCharacter data mark parity stop && !s.de then s.holdSpace
    else
      { s with receiver := { s.receiver with inCharacter := none, awaitMark := !stop } }.takeCharacter
        (s.judgeSamples data mark parity stop)
  else s

/-- A confirmed start bit: the receiver is inside a character, at the bit rate and parity in force; in WAITING the
answer timer stops and the phase becomes RECEIVING (R4, R93, R110). -/
def State.startCharacter (s : State) : State :=
  if s.receiver.canStart then
    let started := { s with
      receiver := { s.receiver with
        inCharacter := some { bitRate := s.lineConfig.bitRate, parity := s.lineConfig.parity } } }
    if s.phase = .waiting then started.beginReception else started
  else s

/-- RXD returns to mark before a break is detected: the held space character is handled as an ordinary character with a
framing failure (R106). -/
def State.releaseSpace (s : State) : State :=
  if s.receiver.heldSpace && !s.receiver.lineInBreak then
    { s with receiver := { s.receiver with heldSpace := false } }.takeCharacter
      { data := 0, mark := false, parityOk := s.lineConfig.parity.passes 0 false false, framingOk := false }
  else s

/-- RXD returns to mark after a framing failure that was not held back (R4). -/
def State.returnToMark (s : State) : State :=
  if s.receiver.awaitMark && !s.receiver.lineInBreak then
    { s with receiver := { s.receiver with awaitMark := false } }
  else s

/-! ## Breaks (R106, R107) -/

/-- A break met by an answer: if the attempt has not yet failed it is BAD_ANSWER with detail BREAK; reception stops
(R107). -/
def State.breakReception (s : State) : State :=
  match s.context with
  | none => s
  | some c => if c.verdict.isSome then s else { s with context := some (c.fail .lineBreak) }

/-- RXD has been at space for 2 character times: BREAK and the breaks counter are raised and the line is in break
(R106). In CALLING the echo check finds the collision by then (R107, R162, log entry 12). -/
def State.detectBreak (s : State) : State :=
  if s.receiver.lineInBreak then s
  else
    let broken := { s with
      breaks := satInc Config.lineCounterCap s.breaks
      receiver := { inCharacter := none, heldSpace := false, awaitMark := true, lineInBreak := true } }.raise .lineBreak
    match s.phase with
    | .calling => broken.collide
    | .waiting => broken.beginReception.breakReception
    | .receiving => broken.breakReception
    | .idle | .gap | .settling | .holdoff => broken

/-- RXD returns to mark after a break: the quiet timers are loaded, a verdict that the break cut short takes effect, and
the phase becomes HOLDOFF; in STOPPED it stays IDLE, and a step that ends the last transaction in DRAINING makes the
mode STOPPED (R87, R106, R107, R108, R145). -/
def State.endBreak (s : State) : State :=
  if s.receiver.lineInBreak then
    let ready := { s with receiver := Receiver.ready }
    if s.mode = .stopped then ready
    else
      match s.phase with
      | .idle | .gap | .holdoff => ready.enterHoldoff
      | .receiving | .settling => ready.takeVerdict.enterHoldoff.endDrain
      | .calling => ready.collide
      | .waiting => ready
  else s

/-! ## The meanings -/

/-- The receiver delivers a character (R4). -/
def execCharacterDelivered (data : Byte) (mark parity stop : Bool) (s : State) : Host.Outcome State Fault Refusal :=
  .next (s.live (·.deliver data mark parity stop))

/-- A confirmed start bit (R4, R93). -/
def execConfirmedStartBit (s : State) : Host.Outcome State Fault Refusal :=
  .next (s.live State.startCharacter)

/-- RXD returns to mark after a held-back space character (R106). -/
def execSpaceCharacter (s : State) : Host.Outcome State Fault Refusal :=
  .next (s.live State.releaseSpace)

/-- A break is detected (R106). -/
def execBreakDetected (s : State) : Host.Outcome State Fault Refusal :=
  .next (s.live State.detectBreak)

/-- RXD returns to mark after a break (R107). -/
def execBreakEnd (s : State) : Host.Outcome State Fault Refusal :=
  .next (s.live State.endBreak)

/-- The stop bit of a sent character ends before its echo has been delivered: a collision (R90). -/
def execEchoMissing (s : State) : Host.Outcome State Fault Refusal :=
  .next (s.live fun s =>
    match s.tx with
    | .sending _ _ _ false => s.collide
    | .sending _ _ _ true | .quiet | .lead | .trail => s)

/-- The stop bit of a sent character ends, its echo matched (R89). -/
def execCharacterSent (s : State) : Host.Outcome State Fault Refusal :=
  .next (s.live fun s =>
    match s.tx with
    | .sending i _ _ true => s.sendNext i
    | .sending _ _ _ false | .quiet | .lead | .trail => s)

/-- RXD returns to mark after a framing failure (R4). -/
def execRxdReturnToMark (s : State) : Host.Outcome State Fault Refusal :=
  .next (s.live State.returnToMark)

end Sys2Proof.Machine
end

