-- ==== Sys2Proof/Machine/Resets.lean ====
section
/-! DEFINITION. RESET#, power-on, and the end of the initialisation that follows every reset (section 8.5). -/

namespace Sys2Proof.Machine

/-- The reset step of RESET# and power-on: every block at its reset state, every setting at its default; the pins stay
as the host drives them, and the waiting commands, the model's own, stay (R40, R69, R83, R85, R109, R124, R141, R148,
R153, R165, R170). -/
def State.hardReset (s : State) (held : Bool) : State :=
  { State.reset with resetHeld := held, port := s.port.dropAccess, pending := s.pending }

/-- The end of initialisation: message memory is zeroed, the free list is formed, and the Command Unit becomes READY
with no event raised (R125, R155, R170). -/
def State.endInitialisation (s : State) : State :=
  match s.unit with
  | .initialising =>
    { s with
      unit := .ready
      cmdResult := .ok
      replies := Replies.zero
      owners := List.replicate 64 .free
      freeList := List.range 64
      memory := [] }
  | .ready | .executing _ _ => s

/-- RESET# falls: the part is held at its reset state (R153). -/
def execResetAssert (s : State) : Host.Outcome State Fault Refusal :=
  .next (s.hardReset true)

/-- RESET# rises: the Timebase, the receiver and the host port start, and initialisation begins (R153, R155). -/
def execResetRelease (s : State) : Host.Outcome State Fault Refusal :=
  .next { s with resetHeld := false }

/-- A power-on reset: the reset step, then the release, unless RESET# itself is still held low (R153, log entry 13). -/
def execPowerOn (s : State) : Host.Outcome State Fault Refusal :=
  .next (s.hardReset s.resetHeld)

/-- Initialisation ends (R155). -/
def execInitialisationEnd (s : State) : Host.Outcome State Fault Refusal :=
  .next (s.live State.endInitialisation)

end Sys2Proof.Machine
end

