-- ==== Sys2Proof/Machine/Timing.lean ====
section
/-! DEFINITION. The line timers that reach 0, the ticks of the Timebase, and what falls due at them (chapters 3, 4, 5
and 8). An expiry of a timer that does not run does not arise; given to the model, it changes nothing (log entry 4). -/

namespace Sys2Proof.Machine

/-! ## Line timers -/

/-- The telegram-gap timer reaches 0 (R88). -/
def State.telegramGapEnd (s : State) : State :=
  if s.phase = .gap ∧ s.lineQuiet = true then s.enterCalling else s

/-- The DE lead timer reaches 0 (R89). -/
def State.deLeadEnd (s : State) : State :=
  if s.tx = .lead then s.beginCall else s

/-- The DE trail timer reaches 0 (R89). -/
def State.deTrailEnd (s : State) : State :=
  if s.tx = .trail then s.completeCall else s

/-- The answer timer reaches 0: NO_ANSWER with detail SILENT (R93). -/
def State.answerTimerEnd (s : State) : State :=
  if s.phase = .waiting then
    { s with context := s.context.map (Context.judge · .noAnswer) }.enterSettling
  else s

/-- The character-gap timer reaches 0: an answer that has not yet failed is TRUNCATED (R96); a damaged answer has
passed (R97). R87 holds the quiet timers while the line is in break and does not say so of this one; that it is held
too, so that the phase stays RECEIVING until the return to mark of R107, is the model's choice (DESIGN CHOICE, log
entry 26). -/
def State.characterGapEnd (s : State) : State :=
  if s.phase = .receiving ∧ s.timer.kind = .characterGap ∧ s.lineQuiet = true then
    { s with context := s.context.map fun (c : Context) => if c.verdict.isSome then c else c.fail .truncated }.enterSettling
  else s

/-- The settle timer reaches 0: the verdict takes effect; a retry goes back to GAP, an ending returns to IDLE, which is
an occasion to look (R99, R101, R102). -/
def State.settleEnd (s : State) : State :=
  if s.phase = .settling ∧ s.lineQuiet = true then
    let judged := s.takeVerdict
    if judged.context.isSome then judged.enterGap else judged.enterIdle.endDrain.look
  else s

/-- The holdoff timer reaches 0: GAP with a transaction in flight, IDLE without (R105). -/
def State.holdoffEnd (s : State) : State :=
  if s.phase = .holdoff ∧ s.lineQuiet = true then
    if s.context.isSome then s.enterGap else s.enterIdle.look
  else s

/-! ## The Timebase (R151) -/

/-- A prescaler rises by 1, and becomes 0 where it would reach 10 (R151). -/
def prescale (n : Nat) : Nat :=
  if n + 1 < 10 then n + 1 else 0

/-- The Poll Timer counts in RUNNING and DRAINING, and is frozen in STOPPED (R71, R72, R74). -/
def State.pollTimerRuns (s : State) : Bool :=
  s.mode != .stopped

/-- Whether the rise of a prescaler brings it back to 0, which gives the next slower tick (R151). -/
def prescalerReturns (n : Nat) : Bool :=
  decide (10 ≤ n + 1)

/-- The 10 ms tick that a rise of the time counter has given: the 100 ms prescaler rises, its return to 0 gives a
100 ms tick, and the Poll Timer counts the poll periods (R71, R151). Where none is given, none falls (log entry 15). -/
def State.tick10 (s : State) : State :=
  if s.tick10Given then
    { s with
      tick10Given := false
      prescaler100 := prescale s.prescaler100
      tick100Given := s.tick100Given || prescalerReturns s.prescaler100
      stations := if s.pollTimerRuns then s.stations.map Station.pollTick else s.stations }
  else s

/-- The 100 ms tick that a 10 ms tick has given: the Poll Timer counts the probe intervals (R72, R151). Where none is
given, none falls (log entry 15). -/
def State.tick100 (s : State) : State :=
  if s.tick100Given then
    { s with
      tick100Given := false
      stations := if s.pollTimerRuns then s.stations.map Station.probeTick else s.stations }
  else s

/-- The ticks that are given and not yet taken, the 10 ms tick first. -/
def State.takeGivenTicks (s : State) : State :=
  s.tick10.tick100

/-- The rise of the time counter and of the 10 ms prescaler, whose return to 0 gives a 10 ms tick (R151). -/
def State.riseTime (s : State) : State :=
  { s with
    timeCounter := s.timeCounter + 1
    prescaler10 := prescale s.prescaler10
    tick10Given := prescalerReturns s.prescaler10 }

/-- The time counter rises. A tick that an earlier rise has given and no row has taken falls before this rise, so that
none is lost (R151, log entry 15). -/
def State.tick (s : State) : State :=
  s.takeGivenTicks.riseTime

/-- A station falls due for a poll: an occasion to look (R57, R71). -/
def State.pollFallsDue (s : State) (address : Nat) : State :=
  if (s.station address).pollDue then s.look else s

/-- A station falls due for a probe: an occasion to look (R57, R72). -/
def State.probeFallsDue (s : State) (address : Nat) : State :=
  if (s.station address).probeDue then s.look else s

/-- The record's hold ends now: the time counter has reached its hold-until value (R67). -/
def State.holdReached (s : State) (r : Request) : Bool :=
  r.holdUntil == some s.timeCounter

/-- Every hold that the time counter has reached ends, an occasion to look (R67). -/
def State.endHolds (s : State) : State :=
  if s.queue.any s.holdReached then
    { s with queue := s.queue.map fun r => if s.holdReached r then { r with holdUntil := none } else r }.look
  else s

/-! ## The meanings -/

/-- The telegram-gap timer reaches 0 (R88). -/
def execTelegramGapExpiry (s : State) : Host.Outcome State Fault Refusal :=
  .next (s.live State.telegramGapEnd)

/-- The DE lead timer reaches 0 (R89). -/
def execDeLeadExpiry (s : State) : Host.Outcome State Fault Refusal :=
  .next (s.live State.deLeadEnd)

/-- The DE trail timer reaches 0 (R89). -/
def execDeTrailExpiry (s : State) : Host.Outcome State Fault Refusal :=
  .next (s.live State.deTrailEnd)

/-- The answer timer reaches 0 (R93). -/
def execAnswerTimerExpiry (s : State) : Host.Outcome State Fault Refusal :=
  .next (s.live State.answerTimerEnd)

/-- The character-gap timer reaches 0 (R96, R97). -/
def execCharacterGapExpiry (s : State) : Host.Outcome State Fault Refusal :=
  .next (s.live State.characterGapEnd)

/-- The settle timer reaches 0 (R99). -/
def execSettleTimerExpiry (s : State) : Host.Outcome State Fault Refusal :=
  .next (s.live State.settleEnd)

/-- The holdoff timer reaches 0 (R105). -/
def execHoldoffExpiry (s : State) : Host.Outcome State Fault Refusal :=
  .next (s.live State.holdoffEnd)

/-- The time counter rises (R151). -/
def execTimeCounterTick (s : State) : Host.Outcome State Fault Refusal :=
  .next (s.live State.tick)

/-- The 10 ms tick given by the 10 ms prescaler's return to 0 (R71, R151). -/
def execTenMsTick (s : State) : Host.Outcome State Fault Refusal :=
  .next (s.live State.tick10)

/-- The 100 ms tick given by the 100 ms prescaler's return to 0 (R72, R151). -/
def execHundredMsTick (s : State) : Host.Outcome State Fault Refusal :=
  .next (s.live State.tick100)

/-- A station falls due for a poll (R71). -/
def execPollCountdownExpiry (station : Nat) (s : State) : Host.Outcome State Fault Refusal :=
  .next (s.live (·.pollFallsDue station))

/-- A station falls due for a probe (R72). -/
def execProbeCountdownExpiry (station : Nat) (s : State) : Host.Outcome State Fault Refusal :=
  .next (s.live (·.probeFallsDue station))

/-- A hold ends (R67). -/
def execHoldEnd (s : State) : Host.Outcome State Fault Refusal :=
  .next (s.live State.endHolds)

end Sys2Proof.Machine
end

