-- ==== Sys2Proof/Machine/Dispatch.lean ====
section
/-! DEFINITION. One arm per row of the table, in the table's order: the meaning of each command. -/

namespace Sys2Proof.Machine

def exec (i : Instr) (s : State) : Host.Outcome State Fault Refusal :=
  match i with
  | .allocate => Sys2Proof.Machine.execAllocate s
  | .release => Sys2Proof.Machine.execRelease s
  | .submit => Sys2Proof.Machine.execSubmit s
  | .cancel => Sys2Proof.Machine.execCancel s
  | .take => Sys2Proof.Machine.execTake s
  | .start => Sys2Proof.Machine.execStart s
  | .stop => Sys2Proof.Machine.execStop s
  | .abort => Sys2Proof.Machine.execAbort s
  | .setLine => Sys2Proof.Machine.execSetLine s
  | .getLine => Sys2Proof.Machine.execGetLine s
  | .setLimits => Sys2Proof.Machine.execSetLimits s
  | .getLimits => Sys2Proof.Machine.execGetLimits s
  | .setStation => Sys2Proof.Machine.execSetStation s
  | .getStation => Sys2Proof.Machine.execGetStation s
  | .nextChange => Sys2Proof.Machine.execNextChange s
  | .reset => Sys2Proof.Machine.execReset s
  | .unknownCommand code => Sys2Proof.Machine.execUnknownCommand code s
  | .discardedCommandWrite code => Sys2Proof.Machine.execDiscardedCommandWrite code s
  | .commandCompletion => Sys2Proof.Machine.execCommandCompletion s
  | .eventsWrite bank value => Sys2Proof.Machine.execEventsWrite bank value s
  | .enableWrite bank value => Sys2Proof.Machine.execEnableWrite bank value s
  | .bufSelectWrite value => Sys2Proof.Machine.execBufSelectWrite value s
  | .bufOffsetWrite value => Sys2Proof.Machine.execBufOffsetWrite value s
  | .bufDataRead => Sys2Proof.Machine.execBufDataRead s
  | .bufDataWrite value => Sys2Proof.Machine.execBufDataWrite value s
  | .timeLoRead => Sys2Proof.Machine.execTimeLoRead s
  | .registerWrite offset value => Sys2Proof.Machine.execRegisterWrite offset value s
  | .resetAssert => Sys2Proof.Machine.execResetAssert s
  | .resetRelease => Sys2Proof.Machine.execResetRelease s
  | .powerOn => Sys2Proof.Machine.execPowerOn s
  | .initialisationEnd => Sys2Proof.Machine.execInitialisationEnd s
  | .characterDelivered data mark parity stop => Sys2Proof.Machine.execCharacterDelivered data mark parity stop s
  | .confirmedStartBit => Sys2Proof.Machine.execConfirmedStartBit s
  | .spaceCharacter => Sys2Proof.Machine.execSpaceCharacter s
  | .breakDetected => Sys2Proof.Machine.execBreakDetected s
  | .breakEnd => Sys2Proof.Machine.execBreakEnd s
  | .telegramGapExpiry => Sys2Proof.Machine.execTelegramGapExpiry s
  | .deLeadExpiry => Sys2Proof.Machine.execDeLeadExpiry s
  | .deTrailExpiry => Sys2Proof.Machine.execDeTrailExpiry s
  | .echoMissing => Sys2Proof.Machine.execEchoMissing s
  | .answerTimerExpiry => Sys2Proof.Machine.execAnswerTimerExpiry s
  | .characterGapExpiry => Sys2Proof.Machine.execCharacterGapExpiry s
  | .settleTimerExpiry => Sys2Proof.Machine.execSettleTimerExpiry s
  | .holdoffExpiry => Sys2Proof.Machine.execHoldoffExpiry s
  | .timeCounterTick => Sys2Proof.Machine.execTimeCounterTick s
  | .tenMsTick => Sys2Proof.Machine.execTenMsTick s
  | .hundredMsTick => Sys2Proof.Machine.execHundredMsTick s
  | .pollCountdownExpiry station => Sys2Proof.Machine.execPollCountdownExpiry station s
  | .probeCountdownExpiry station => Sys2Proof.Machine.execProbeCountdownExpiry station s
  | .holdEnd => Sys2Proof.Machine.execHoldEnd s
  | .characterSent => Sys2Proof.Machine.execCharacterSent s
  | .rxdReturnToMark => Sys2Proof.Machine.execRxdReturnToMark s

end Sys2Proof.Machine
end

