-- ==== Sys2Proof/Machine/Port.lean ====
section
/-! DEFINITION. The bus port: how the levels of CS#, RD#, WR#, A5..A0 and D7..D0 make the accesses to the host window
(section 10.1). The table's rows are whole accesses; the host's pins bring the same accesses by `State.pinChange`, and
no row changes a pin (log entry 18). -/

namespace Sys2Proof.Machine

/-! ## Where an access begins and ends (R166) -/

/-- CS# falls, or a strobe falls while CS# is low. While CS# is high a strobe's change is ignored (R166). -/
def Port.falls (q : Port) (p : Pins) : Bool :=
  !p.cs && (q.cs || (q.rd && !p.rd) || (q.wr && !p.wr))

/-- CS# is low, one strobe is low, and the other is high (R166). -/
def Pins.oneStrobe (p : Pins) : Bool :=
  !p.cs && (p.rd != p.wr)

/-- The new levels with no access in progress. -/
def Pins.quiet (p : Pins) (armed : Bool) : Port :=
  { cs := p.cs, rd := p.rd, wr := p.wr, armed := armed, access := .none }

/-- The new levels with an access in progress: a fall of the other strobe begins no access of its own (R166). -/
def Pins.during (p : Pins) (access : PortAccess) : Port :=
  { cs := p.cs, rd := p.rd, wr := p.wr, armed := false, access := access }

/-! ## The accesses -/

/-- A read is taken at its beginning: A5..A0 are sampled, and the value, with any side effect, is taken then and driven
until the access ends (R166). -/
def State.beginRead (s : State) (p : Pins) : State :=
  { s with port := p.during .read }.hostRead p.address

/-- A write access begins: from here on raises of latched flags are held back (R158, R166). -/
def State.beginWrite (s : State) (p : Pins) : State :=
  { s with port := p.during (.write s.events), events := Events.clear }

/-- A write is taken at its end, with A5..A0 and D7..D0 as they are at that moment; the raises held back since it began
are applied after it has cleared what it clears (R158, R166). Where the write hands over RESET, R166 applies the raises
after the write and R165 leaves every flag clear after the reset; that the reset step clears them too is the model's
choice (DESIGN CHOICE, log entry 18). -/
def State.endWrite (s : State) (standing : Events) (p : Pins) : State :=
  let ended := { s with port := p.quiet false }
  match p.address.toNat with
  | 0x02 => { ended with events := (standing.writeOneToClear .a p.data).merge s.events }
  | 0x03 => { ended with events := (standing.writeOneToClear .b p.data).merge s.events }
  | _ => { ended with events := standing.merge s.events }.hostWrite p.address p.data

/-- The host's pins take new levels. The strobe that begins an access defines it, and CS# or that strobe ends it by
rising; a new access needs a fall after the end of the one before it. While RESET# is held low the port takes none
(R153, R166, log entry 18). -/
def State.pinChange (s : State) (p : Pins) : State :=
  if s.resetHeld then { s with port := p.quiet false }
  else
    match s.port.access with
    | .none =>
      if (s.port.armed || s.port.falls p) && p.oneStrobe then
        if p.wr then s.beginRead p else s.beginWrite p
      else { s with port := p.quiet (s.port.armed || s.port.falls p) }
    | .read => { s with port := if p.cs || p.rd then p.quiet false else p.during .read }
    | .write standing =>
      if p.cs || p.wr then s.endWrite standing p else { s with port := p.during (.write standing) }

/-- What the part drives on D7..D0: the value taken at the beginning of the read access in progress, and nothing
otherwise (R166). -/
def State.busDrive (s : State) : Option Byte :=
  if s.resetHeld then none
  else
    match s.port.access with
    | .read => some s.readData
    | .none | .write _ => none

end Sys2Proof.Machine
end

