-- ==== Sys2Proof/Safety.lean ====
section
/-! DEFINITION. What holds of the part at all times: the laws of the chapters as predicates on its state. Each is an
invariant that every step keeps. -/

namespace Sys2Proof.Machine

/-- Each of the 64 buffers has one ownership, and the free list holds each FREE buffer exactly once and no other buffer
(R113). -/
abbrev State.PoolOk (s : State) : Prop :=
  s.owners.length = 64 ∧ s.freeList.Nodup ∧ (∀ b ∈ s.freeList, b < 64) ∧
  ∀ b < 64, (b ∈ s.freeList ↔ s.owner b = some .free)

/-- The records held and, while a transaction is in flight, its reserved slot never exceed 24; the mark is set exactly
while a transaction is in flight (R130). -/
abbrev State.SlotsOk (s : State) : Prop :=
  s.reserved = s.context.isSome ∧ s.results.length + bitOf s.context.isSome ≤ 24

/-- The Request Queue holds at most 16 records, the urgent ones ahead of the normal ones (R43). -/
abbrev State.QueueOk (s : State) : Prop :=
  s.queue.length ≤ 16 ∧ s.queue.Pairwise fun a b => b.urgent = true → a.urgent = true

/-- The ticket of the in-flight request, if one is in flight (R44). -/
def State.flightTicket (s : State) : List Nat :=
  match s.context with
  | some c => if c.origin = .request then [c.ticket] else []
  | none => []

/-- The outstanding tickets: those of the queued records and of the in-flight request (R44). -/
def State.tickets (s : State) : List Nat :=
  s.queue.map (·.ticket) ++ s.flightTicket

/-- The outstanding tickets are pairwise different and, like the ticket counter, lie in 1..255 (R44). -/
abbrev State.TicketsOk (s : State) : Prop :=
  s.queue.length ≤ 16 ∧ s.tickets.Nodup ∧ (∀ t ∈ s.tickets, 1 ≤ t ∧ t ≤ 255) ∧
  1 ≤ s.ticketCounter ∧ s.ticketCounter ≤ 255

/-- A context is present in GAP, CALLING, WAITING, RECEIVING and SETTLING, absent in IDLE, and either in HOLDOFF
(R86). -/
def LinePhase.allows (p : LinePhase) (present : Bool) : Bool :=
  match p with
  | .idle => !present
  | .gap | .calling | .waiting | .receiving | .settling => present
  | .holdoff => true

/-- DE is asserted only in CALLING, where the sender is at work; the phase and the context go together; in STOPPED the
phase is IDLE with no context, in DRAINING a transaction is in flight; a pending cancel is met neither in GAP nor in
HOLDOFF; a line in break is met neither in CALLING nor in WAITING; an attempt to a station that settles, or that a
break has cut short, has been judged (R85, R86, R89, R98, R107, R142, R145). -/
abbrev State.LineOk (s : State) : Prop :=
  (s.de = true ↔ s.phase = .calling) ∧ (s.tx = .quiet ↔ s.phase ≠ .calling) ∧
  s.phase.allows s.context.isSome = true ∧
  (s.mode = .stopped → s.phase = .idle) ∧ (s.mode = .draining → s.context.isSome = true) ∧
  (s.phase = .gap ∨ s.phase = .holdoff → ∀ c ∈ s.context, c.cancelPending = false) ∧
  (s.receiver.lineInBreak = true → s.phase ≠ .calling ∧ s.phase ≠ .waiting) ∧
  (s.phase = .settling ∨ (s.phase = .receiving ∧ s.receiver.lineInBreak = true) →
    ∀ c ∈ s.context, c.station ≠ 0 → c.verdict.isSome = true)

/-- The fail count is 0 in UNKNOWN, ONLINE and DISABLED, and lies in 1..15 in SUSPECT and OFFLINE (R20). -/
abbrev Station.FailCountOk (e : Station) : Prop :=
  (e.state = .unknown ∨ e.state = .online ∨ e.state = .disabled → e.failCount = 0) ∧
  (e.state = .suspect ∨ e.state = .offline → 1 ≤ e.failCount ∧ e.failCount ≤ 15)

/-- The values of an entry stay within their ranges (R19). -/
abbrev Station.RangesOk (e : Station) : Prop :=
  e.failCount ≤ 15 ∧ e.pollPeriod ≤ 255 ∧ e.pollCountdown ≤ 255 ∧ e.probeCountdown ≤ 255 ∧
  e.answersTaken ≤ 65535 ∧ e.failedAttempts ≤ 65535 ∧ e.duplicateReports ≤ 65535 ∧ e.lateCharacters ≤ 65535

/-- The table holds 31 entries, each with a fail count that fits its state (R19, R20). -/
abbrev State.StationsOk (s : State) : Prop :=
  s.stations.length = 31 ∧ ∀ e ∈ s.stations, e.FailCountOk

/-- The limits lie within their ranges (R148). -/
abbrev Limits.RangesOk (l : Limits) : Prop :=
  1 ≤ l.offlineThreshold ∧ l.offlineThreshold ≤ 15 ∧ 1 ≤ l.pollShare ∧ l.pollShare ≤ 15 ∧
  1 ≤ l.probeInterval ∧ l.probeInterval ≤ 255 ∧ 1 ≤ l.busyDelay ∧ l.busyDelay ≤ 255 ∧
  1 ≤ l.watermark ∧ l.watermark ≤ 24

/-- The fields of the line configuration lie within their ranges (R109). -/
abbrev LineConfig.RangesOk (l : LineConfig) : Prop :=
  l.bitRate ≤ 7 ∧ 2 ≤ l.answerTimeout ∧ l.answerTimeout ≤ 255 ∧ 1 ≤ l.characterGap ∧ l.characterGap ≤ 15 ∧
  1 ≤ l.telegramGap ∧ l.telegramGap ≤ 15 ∧ l.deLead ≤ 7 ∧ l.deTrail ≤ 7 ∧ 8 ≤ l.holdoff ∧ l.holdoff ≤ 255

/-- A tick that is given stands only where its prescaler has just returned to 0, so that a 100 ms tick falls at the moment
of a 10 ms tick, and the 10 ms tick is taken first (R151). -/
abbrev State.TicksOk (s : State) : Prop :=
  (s.tick10Given = true → s.prescaler10 = 0) ∧
  (s.tick100Given = true → s.prescaler10 = 0 ∧ s.prescaler100 = 0 ∧ s.tick10Given = false)

/-- The settings and the counters of the part lie within their ranges, and the given ticks stand where they may (R19, R44,
R61, R70, R108, R109, R148, R151). -/
abbrev State.RangesOk (s : State) : Prop :=
  s.limits.RangesOk ∧ s.lineConfig.RangesOk ∧ (∀ e ∈ s.stations, e.RangesOk) ∧
  s.consecutive ≤ 15 ∧ 1 ≤ s.pollPointer ∧ s.pollPointer ≤ 31 ∧ s.strayCharacters ≤ 65535 ∧ s.conflicts ≤ 255 ∧
  s.breaks ≤ 255 ∧ s.prescaler10 ≤ 9 ∧ s.prescaler100 ≤ 9 ∧ s.TicksOk

/-- The fields of a queued record lie within their ranges; it has made at most as many attempts as its retry limit, since
no attempt would remain otherwise (R42, R44, R46, R65). -/
abbrev Request.RangesOk (r : Request) : Prop :=
  1 ≤ r.ticket ∧ r.ticket ≤ 255 ∧ r.station ≤ 31 ∧ r.retryLimit ≤ 7 ∧ r.attemptsMade ≤ r.retryLimit ∧
  r.outLength ≤ 32 ∧ ∀ b ∈ r.outBuffer, b ≤ 63

/-- The length of a valid answer (R8). -/
def Verdict.length : Verdict → Nat
  | .valid _ length _ _ => length
  | .noAnswer | .badAnswer _ => 0

/-- The fields of the transaction context lie within their ranges: a request has a ticket in 1..255, a poll or a probe
has ticket 0 and a station; one attempt more than the retry limit is made at most; the fourth collision ends a
transaction (R84, R91, R100). -/
abbrev Context.RangesOk (c : Context) : Prop :=
  c.ticket ≤ 255 ∧ (c.origin = .request ↔ 1 ≤ c.ticket) ∧ c.station ≤ 31 ∧ (c.origin ≠ .request → 1 ≤ c.station) ∧
  c.retryLimit ≤ 7 ∧ c.attempts ≤ c.retryLimit + 1 ∧ c.collisions ≤ 3 ∧ c.outLength ≤ 32 ∧
  (∀ b ∈ c.outBuffer, b ≤ 63) ∧ (∀ b ∈ c.answerBuffer, b ≤ 63) ∧ ∀ v ∈ c.verdict, v.length ≤ 32

/-- The fields of a result record lie within their ranges; a record of a request has a ticket in 1..255, one of a report
has ticket 0 (R127). -/
abbrev ResultRecord.RangesOk (r : ResultRecord) : Prop :=
  r.ticket ≤ 255 ∧ (r.origin = .request ↔ 1 ≤ r.ticket) ∧ r.station ≤ 31 ∧ r.attempts ≤ 8 ∧ r.collisions ≤ 4 ∧
  r.length ≤ 32 ∧ ∀ b ∈ r.buffer, b ≤ 63

/-- The fields of the records, of the context and of the answer being received lie within their ranges, and so do the
ticket counter and the indices of the free list, from which they are filled. Where a call is still to be sent, an
attempt remains (R19, R42, R44, R84, R88, R94, R116, R127). -/
abbrev State.RecordsOk (s : State) : Prop :=
  1 ≤ s.ticketCounter ∧ s.ticketCounter ≤ 255 ∧ (∀ b ∈ s.freeList, b ≤ 63) ∧
  (∀ r ∈ s.queue, r.RangesOk) ∧ (∀ c ∈ s.context, c.RangesOk) ∧ (∀ r ∈ s.results, r.RangesOk) ∧
  (s.phase = .gap ∨ s.phase = .calling ∨ s.phase = .holdoff → ∀ c ∈ s.context, c.attempts ≤ c.retryLimit) ∧
  s.reception.length ≤ 32 ∧ s.reception.taken ≤ s.reception.length + 4

/-- The buffers that the queued records, the context and the result records hold. -/
def State.queuedBuffers (s : State) : List Nat :=
  s.queue.filterMap (·.outBuffer)

/-- The buffers of the transaction in flight. -/
def State.lineBuffers (s : State) : List Nat :=
  match s.context with
  | some c => c.outBuffer.toList ++ c.answerBuffer.toList
  | none => []

/-- The buffers of the result records. -/
def State.resultBuffers (s : State) : List Nat :=
  s.results.filterMap (·.buffer)

/-- A QUEUED buffer is the out buffer of exactly one queued record, a LINE buffer belongs to the context, a RESULT buffer
to exactly one result record, and no other buffer has that ownership; none of them holds an index that no buffer has
(R112, R113). -/
abbrev State.HoldersOk (s : State) : Prop :=
  (∀ b ∈ s.queuedBuffers ++ s.lineBuffers ++ s.resultBuffers, b < 64) ∧
  s.queuedBuffers.Nodup ∧ s.lineBuffers.Nodup ∧ s.resultBuffers.Nodup ∧
  (∀ b < 64, b ∈ s.queuedBuffers ↔ s.owner b = some .queued) ∧
  (∀ b < 64, b ∈ s.lineBuffers ↔ s.owner b = some .line) ∧
  (∀ b < 64, b ∈ s.resultBuffers ↔ s.owner b = some .result)

/-- During initialisation nothing is queued, in flight or posted, and the mode is STOPPED (R142, R155). -/
abbrev State.InitialisationOk (s : State) : Prop :=
  s.unit = .initialising → s.mode = .stopped ∧ s.queue = [] ∧ s.context = none ∧ s.results = []

/-- Everything that ties buffers to their holders. -/
abbrev State.BuffersOk (s : State) : Prop :=
  s.PoolOk ∧ s.TicketsOk ∧ s.InitialisationOk ∧ s.HoldersOk

/-! ## Words for the statements -/

/-- The Command Unit takes the command written now: RESET# is high and the unit is READY (R153, R171). -/
abbrev State.TakesCommand (s : State) : Prop :=
  s.resetHeld = false ∧ s.unit = .ready

/-- The hand-over of a command: COMMAND reads its code, and ARG0..ARG7 are copied into the argument latch (R171). -/
def State.handedOver (s : State) (code : Byte) : State :=
  { s with commandCode := code, latch := s.args }

/-- BUSY with a command whose immediate work is done: the completion is to write this result code and these replies
(R171, R172). -/
def State.answering (s : State) (code : ResultCode) (replies : Replies) : State :=
  { s with unit := .executing code replies }

/-- The rows that write COMMAND. -/
def isCommandWrite : Instr → Bool
  | .allocate | .release | .submit | .cancel | .take | .start | .stop | .abort | .setLine | .getLine | .setLimits
  | .getLimits | .setStation | .getStation | .nextChange | .reset | .unknownCommand _ | .discardedCommandWrite _ => true
  | .commandCompletion | .eventsWrite _ _ | .enableWrite _ _ | .bufSelectWrite _ | .bufOffsetWrite _ | .bufDataRead
  | .bufDataWrite _ | .timeLoRead | .registerWrite _ _ | .resetAssert | .resetRelease | .powerOn | .initialisationEnd
  | .characterDelivered _ _ _ _ | .confirmedStartBit | .spaceCharacter | .breakDetected | .breakEnd
  | .telegramGapExpiry | .deLeadExpiry | .deTrailExpiry | .echoMissing | .answerTimerExpiry | .characterGapExpiry
  | .settleTimerExpiry | .holdoffExpiry | .timeCounterTick | .tenMsTick | .hundredMsTick | .pollCountdownExpiry _
  | .probeCountdownExpiry _ | .holdEnd | .characterSent | .rxdReturnToMark => false

/-- The cases in which SUBMIT's arguments are refused, as R46 lists them. -/
abbrev Args.SubmitFaulty (a : Args) : Prop :=
  31 < a.arg0.toNat ∨
  ¬ (a.arg1 = 1 ∨ a.arg1 = 2 ∨ a.arg1 = 3) ∨
  (a.arg0 = 0 ∧ (a.arg1 = 2 ∨ a.arg1 = 3)) ∨
  32 < a.arg3.toNat ∨
  7 < a.arg4.toNat ∨
  1 < a.arg5.toNat ∨
  (64 ≤ a.arg2.toNat ∧ a.arg2.toNat ≤ 0xFE) ∨
  (a.arg1 = 2 ∧ (a.arg2 ≠ 0xFF ∨ a.arg3 ≠ 0)) ∨
  (a.arg1 = 3 ∧ (a.arg3 = 0 ∨ a.arg2 = 0xFF)) ∨
  (a.arg1 = 1 ∧ 0 < a.arg3.toNat ∧ a.arg2 = 0xFF)

/-- Commands run one after another, up to the first that does not answer a next state. -/
def execAll (commands : List Instr) (s : State) : Host.Outcome State Fault Refusal :=
  match commands with
  | [] => .next s
  | c :: rest =>
    match exec c s with
    | .next t => execAll rest t
    | .fault r => .fault r
    | .refused r => .refused r

/-- The parity bit that a character with this value and mark bit carries; any level under NONE (R2). -/
def Parity.sent (p : Parity) (data : Byte) (mark : Bool) : Bool :=
  (p.bit data mark).getD true

/-- The arrivals of a telegram's characters on an undisturbed line, without framing or parity failure: each start bit is
confirmed and each character is delivered, the first with mark 1 and every later one with mark 0 (R4, R5). -/
def telegramArrivals (p : Parity) (characters : List Byte) : List Instr :=
  characters.zipIdx.flatMap fun (d, i) =>
    [.confirmedStartBit, .characterDelivered d (i == 0) (p.sent d (i == 0)) true]

/-- The arrivals of a call's own characters, read back as sent: each echo is delivered in the middle of its stop bit, and
the stop bit then ends (R90). -/
def echoArrivals (p : Parity) (characters : List Byte) : List Instr :=
  characters.zipIdx.flatMap fun (d, i) =>
    [.confirmedStartBit, .characterDelivered d (i == 0) (p.sent d (i == 0)) true, .characterSent]

end Sys2Proof.Machine
end

