-- ==== Sys2Proof/WellFormed.lean ====
section
/-! DEFINITION. Which terms of Instr spell a step of the table: the checks on operands. A term that fails one is no
row of the table; its meaning is still total (log entry 5). -/

namespace Sys2Proof

/-- A code that names no command: 0x00 or 0x11..0xFF (R174). -/
def isUnknownCode (code : Byte) : Bool :=
  code.toNat == 0 || decide (0x11 ≤ code.toNat)

/-- An offset whose writes have no row of their own: not EVENTS_A, EVENTS_B, ENABLE_A, ENABLE_B, COMMAND,
BUF_SELECT, BUF_OFFSET or BUF_DATA (the register map of section 10.2). -/
def isPlainOffset (offset : Offset) : Bool :=
  ! ([0x02, 0x03, 0x04, 0x05, 0x06, 0x14, 0x15, 0x16].contains offset.toNat)

/-- A station address 1..31 (R19). -/
def isStationAddress (station : Nat) : Bool :=
  decide (1 ≤ station) && decide (station ≤ Config.stationCount)

/-- The term spells a row of the table. -/
def Instr.wellFormed : Instr → Bool
  | .unknownCommand code => isUnknownCode code
  | .registerWrite offset _ => isPlainOffset offset
  | .pollCountdownExpiry station => isStationAddress station
  | .probeCountdownExpiry station => isStationAddress station
  | .allocate | .release | .submit | .cancel | .take | .start | .stop | .abort | .setLine | .getLine | .setLimits
  | .getLimits | .setStation | .getStation | .nextChange | .reset | .discardedCommandWrite _ | .commandCompletion
  | .eventsWrite _ _ | .enableWrite _ _ | .bufSelectWrite _ | .bufOffsetWrite _ | .bufDataRead | .bufDataWrite _
  | .timeLoRead | .resetAssert | .resetRelease | .powerOn | .initialisationEnd | .characterDelivered _ _ _ _
  | .confirmedStartBit | .spaceCharacter | .breakDetected | .breakEnd | .telegramGapExpiry | .deLeadExpiry
  | .deTrailExpiry | .echoMissing | .answerTimerExpiry | .characterGapExpiry | .settleTimerExpiry | .holdoffExpiry
  | .timeCounterTick | .tenMsTick | .hundredMsTick | .holdEnd | .characterSent | .rxdReturnToMark => true

end Sys2Proof
end

