-- ==== Sys2Proof/Certificates/Slice0/Obligations.lean ====
section
/-! DEFINITION. The statements about the Trimpa 310, from the numbered rules of spec/. Each docstring names the rules it
formalises and, where a clause is the model's own choice, the log entry. -/

section Statements

open Sys2Proof Sys2Proof.Machine

/-! ## The step and the Command Unit -/

/-- A step runs the command at the front of the queue on the state with the queue's rest. That a block with an empty
queue idles is the model's choice (log entry 2). -/
def Obligations.StepRunsFrontCommand : Prop :=
  (∀ (s : State) (c : Instr) (rest : List Instr), s.pending = c :: rest →
    step s = exec c { s with pending := rest }) ∧
  ∀ s : State, s.pending = [] → step s = .next s

/-- No command's effect touches the queue of the waiting commands, which is the model's own field (log entry 2). -/
def Obligations.ExecKeepsPendingQueue : Prop :=
  ∀ (c : Instr) (s t : State), exec c s = .next t → t.pending = s.pending

/-- R153, R166: while RESET# is held low, nothing but its release, or a new reset, changes the part; the port takes no
access, a read drives nothing, and a change of the pins is only followed. That a fall of the pins while RESET# is held
low lets no access begin after it is the model's choice (log entry 18). -/
def Obligations.HeldPartMovesOnlyByResets : Prop :=
  (∀ (c : Instr) (s : State), s.resetHeld = true → c ≠ .resetAssert → c ≠ .resetRelease → c ≠ .powerOn →
    exec c s = .next s) ∧
  ∀ (s : State) (p : Pins) (o : Offset), s.resetHeld = true →
    s.pinChange p = { s with port := ⟨p.cs, p.rd, p.wr, false, .none⟩ } ∧ s.readRegister o = none ∧ s.busDrive = none

/-- R172: a completion writes the result code and the four replies, makes the unit READY and raises COMMAND_DONE, and
changes nothing else. -/
def Obligations.CommandCompletionWritesResult : Prop :=
  ∀ (s : State) (code : ResultCode) (replies : Replies), s.resetHeld = false → s.unit = .executing code replies →
    exec .commandCompletion s =
      .next { s with
        unit := .ready
        cmdResult := code
        replies := replies
        events := { s.events with commandDone := true } }

/-- R173: whatever the code, a write to COMMAND while the unit is BUSY, with a command or with an initialisation, is
discarded: it raises COMMAND_OVERRUN and changes nothing else. -/
def Obligations.BusyUnitDiscardsCommands : Prop :=
  ∀ (c : Instr) (s : State), isCommandWrite c = true → s.resetHeld = false → s.unit ≠ .ready →
    exec c s = .next { s with events := { s.events with commandOverrun := true } }

/-- R174: a code that names no command is taken like any command, changes no block's state, and completes
UNKNOWN_COMMAND with 0x00 in every reply and COMMAND_DONE raised. -/
def Obligations.UnknownCodeCompletes : Prop :=
  ∀ (s : State) (code : Byte), s.TakesCommand → (code = 0x00 ∨ 0x11 ≤ code.toNat) →
    exec (.unknownCommand code) s = .next ((s.handedOver code).answering .unknownCommand ⟨0, 0, 0, 0⟩) ∧
    exec .commandCompletion ((s.handedOver code).answering .unknownCommand ⟨0, 0, 0, 0⟩) =
      .next { s.handedOver code with
        unit := .ready
        cmdResult := .unknownCommand
        replies := ⟨0, 0, 0, 0⟩
        events := { s.events with commandDone := true } }

/-- R176: the code table; and R160: a write that comes to a READY unit, the completion of the command before it having
been taken first, is taken as the new command its code names (log entry 8). -/
def Obligations.CommandCodesSelectCommands : Prop :=
  (∀ p ∈ [((0x01 : Byte), Instr.allocate), (0x02, .release), (0x03, .submit), (0x04, .cancel), (0x05, .take),
      (0x06, .start), (0x07, .stop), (0x08, .abort), (0x09, .setLine), (0x0A, .getLine), (0x0B, .setLimits),
      (0x0C, .getLimits), (0x0D, .setStation), (0x0E, .getStation), (0x0F, .nextChange), (0x10, .reset)],
    commandOfCode p.1 = p.2) ∧
  ∀ (s : State) (code : Byte), s.TakesCommand →
    exec (.discardedCommandWrite code) s = exec (commandOfCode code) s

/-! ## Buffer Pool -/

/-- R119, R115, R117, ALLOCATE: the head of the free list becomes HOST with its 32 bytes 0x00, no other byte of message
memory changes, POOL_EMPTY is raised when it was the last; an empty list refuses with POOL_EMPTY. -/
def Obligations.AllocateTakesHead : Prop :=
  ∀ s : State, s.TakesCommand →
    (∀ (b : Nat) (rest : List Nat), s.freeList = b :: rest → ∃ t : State,
      exec .allocate s = .next (t.answering .ok ⟨BitVec.ofNat 8 b, BitVec.ofNat 8 rest.length, 0, 0⟩) ∧
      t = { s.handedOver 0x01 with
        freeList := rest
        owners := s.owners.set b .host
        memory := t.memory
        events := { s.events with poolEmpty := s.events.poolEmpty || rest.isEmpty } } ∧
      (∀ i < 32, t.bufferByte b i = 0) ∧
      ∀ a : Nat, (a < 32 * b ∨ 32 * b + 32 ≤ a) → t.memory.read a = s.memory.read a) ∧
    (s.freeList = [] →
      exec .allocate s = .next ((s.handedOver 0x01).answering .poolEmpty ⟨0xFF, 0, 0, 0⟩))

/-- R119, R113, RELEASE: a HOST buffer becomes FREE at the tail of the free list, an occasion to look; any other ownership
refuses with NOT_HOST and its code of R113; an index above 63 is refused with BAD_ARGUMENT. -/
def Obligations.ReleaseFreesBuffer : Prop :=
  ∀ (s : State) (b : Nat), s.TakesCommand → b = s.args.arg0.toNat →
    (63 < b →
      exec .release s = .next ((s.handedOver 0x02).answering .badArgument
        ⟨s.args.arg0, BitVec.ofNat 8 s.freeList.length, 0xFF, 0⟩)) ∧
    (b ≤ 63 → s.owner b = some .host →
      exec .release s = .next (({ s.handedOver 0x02 with
        owners := s.owners.set b .free
        freeList := s.freeList ++ [b] }.look).answering .ok
          ⟨s.args.arg0, BitVec.ofNat 8 (s.freeList.length + 1), 0, 0⟩)) ∧
    ∀ p ∈ [(Ownership.free, (0 : Byte)), (.queued, 2), (.line, 3), (.result, 4)], b ≤ 63 → s.owner b = some p.1 →
      exec .release s = .next ((s.handedOver 0x02).answering .notHost
        ⟨s.args.arg0, BitVec.ofNat 8 s.freeList.length, p.2, 0⟩)

/-- R118: a HOST buffer stays HOST through every command but SUBMIT, RELEASE and the resets. R126: the contents of a
buffer that is QUEUED before and after a command are the same. The write of a code to COMMAND that has a row of its
own, and the end of initialisation, at which every buffer is FREE, are left out of the first clause. -/
def Obligations.BuffersKeptForTheirHolders : Prop :=
  (∀ (c : Instr) (s t : State) (b : Nat), c.wellFormed = true → s.PoolOk → s.owner b = some .host →
    exec c s = .next t →
    c ≠ .submit → c ≠ .release → c ≠ .reset → c ≠ .resetAssert → c ≠ .powerOn → c ≠ .initialisationEnd →
    (∀ code : Byte, c ≠ .discardedCommandWrite code) → t.owner b = some .host) ∧
  ∀ (c : Instr) (s t : State) (b i : Nat), s.BuffersOk → b < 64 → i < 32 → s.owner b = some .queued →
    exec c s = .next t → t.owner b = some .queued → t.bufferByte b i = s.bufferByte b i

/-! ## Request Queue -/

/-- R46, R47: the refusals of SUBMIT, in the order of its tests; a refused SUBMIT changes nothing and replies 0. -/
def Obligations.SubmitRefusals : Prop :=
  ∀ s : State, s.TakesCommand →
    (s.args.SubmitFaulty →
      exec .submit s = .next ((s.handedOver 0x03).answering .badArgument ⟨0, 0, 0, 0⟩)) ∧
    (¬ s.args.SubmitFaulty → s.args.arg2 ≠ 0xFF → s.owner s.args.arg2.toNat ≠ some .host →
      exec .submit s = .next ((s.handedOver 0x03).answering .notHost ⟨0, 0, 0, 0⟩)) ∧
    (¬ s.args.SubmitFaulty → (s.args.arg2 = 0xFF ∨ s.owner s.args.arg2.toNat = some .host) → 16 ≤ s.queue.length →
      exec .submit s = .next ((s.handedOver 0x03).answering .queueFull ⟨0, 0, 0, 0⟩))

/-- R43, R45, R48: an accepted SUBMIT makes a record from its arguments, with the ticket of R44, and puts it at the tail
of its class, the urgent class standing ahead of the normal one; the named buffer goes from HOST to QUEUED, the ticket
counter moves on, and the insertion is an occasion to look. -/
def Obligations.SubmitQueuesRequest : Prop :=
  ∀ (s : State) (r : Request), s.TakesCommand → ¬ s.args.SubmitFaulty →
    (s.args.arg2 = 0xFF ∨ s.owner s.args.arg2.toNat = some .host) → s.QueueOk → s.queue.length < 16 →
    r =
      { ticket := s.freeTicket 255 s.ticketCounter
        station := s.args.arg0.toNat
        kind := if s.args.arg1 = 1 then .write else if s.args.arg1 = 2 then .read else .exchange
        urgent := s.args.arg5.getLsbD 0
        retryLimit := s.args.arg4.toNat
        outBuffer := if s.args.arg2 = 0xFF then none else some s.args.arg2.toNat
        outLength := s.args.arg3.toNat
        attemptsMade := 0
        holdUntil := none } →
    exec .submit s = .next (({ s.handedOver 0x03 with
      queue := s.queue.filter (fun q : Request => q.urgent) ++
        (if r.urgent then r :: s.queue.filter (fun q : Request => !q.urgent)
          else s.queue.filter (fun q : Request => !q.urgent) ++ [r])
      ticketCounter := if 255 ≤ r.ticket then 1 else r.ticket + 1
      owners := if s.args.arg2 = 0xFF then s.owners else s.owners.set s.args.arg2.toNat .queued }.look).answering .ok
        ⟨BitVec.ofNat 8 r.ticket, BitVec.ofNat 8 (s.queue.length + 1), 0, 0⟩)

/-- R44: the ticket assigned lies in 1..255, no queued record and no in-flight request holds it, and every ticket from
the counter up to it, counting 1, 2, …, 255, 1, is held. -/
def Obligations.TicketIsFirstFree : Prop :=
  ∀ (s : State) (ticket : Nat), s.TicketsOk → s.queue.length < 16 → ticket = s.freeTicket 255 s.ticketCounter →
    1 ≤ ticket ∧ ticket ≤ 255 ∧ ticket ∉ s.tickets ∧
    ∀ u : Nat, 1 ≤ u → u ≤ 255 → (u + 255 - s.ticketCounter) % 255 < (ticket + 255 - s.ticketCounter) % 255 →
      u ∈ s.tickets

/-- R50, R51: CANCEL of a queued ticket removes its record, frees its out buffer at the tail of the free list, raises
REQUEST_SPACE when 16 records stood, posts nothing, and is an occasion to look. -/
def Obligations.CancelQueuedRequest : Prop :=
  ∀ (s : State) (r : Request), s.TakesCommand → s.args.arg0 ≠ 0 →
    s.queue.find? (·.ticket == s.args.arg0.toNat) = some r →
    (∀ b : Nat, r.outBuffer = some b → s.owner b = some .queued) →
    exec .cancel s = .next (({ s.handedOver 0x04 with
      queue := s.queue.eraseP (·.ticket == s.args.arg0.toNat)
      owners := match r.outBuffer with
        | some b => s.owners.set b .free
        | none => s.owners
      freeList := s.freeList ++ r.outBuffer.toList
      events := { s.events with
        requestSpace := s.events.requestSpace || s.queue.length == 16 } }.look).answering .cancelled
          ⟨s.args.arg0, 0, 0, 0⟩)

/-- R50, R52, R53, R102, R145: CANCEL of the in-flight request ends it CANCELLED in GAP, which returns to IDLE, and in
HOLDOFF, which runs on; in every other phase it sets cancel-pending. A ticket held by neither a queued record nor the
in-flight request is NOT_FOUND; ticket 0 is BAD_ARGUMENT. -/
def Obligations.CancelInFlightRequest : Prop :=
  ∀ (s : State) (ticket : Nat), s.TakesCommand → ticket = s.args.arg0.toNat →
    (ticket = 0 → exec .cancel s = .next ((s.handedOver 0x04).answering .badArgument ⟨0, 0, 0, 0⟩)) ∧
    (ticket ≠ 0 → s.queue.find? (·.ticket == ticket) = none →
      ((∀ c ∈ s.context, ¬ (c.origin = .request ∧ c.ticket = ticket)) →
        exec .cancel s = .next ((s.handedOver 0x04).answering .notFound ⟨s.args.arg0, 0, 0, 0⟩)) ∧
      ∀ (c : Context) (closed : State), s.context = some c → c.origin = .request → c.ticket = ticket →
        closed = (s.handedOver 0x04).close c
          (some
            { ticket := c.ticket, origin := .request, station := c.station, kind := c.kind, outcome := .cancelled,
              answerKind := none, attempts := c.attempts, collisions := c.collisions, detail := c.lastDetail,
              buffer := none, length := 0, refusal := none, cancelRequested := false, stationLost := false,
              stamp := 0 })
          (c.station != 0 && c.callBits.isSome && !c.hasValidAnswer) →
        (s.phase = .gap →
          exec .cancel s = .next ((closed.enterIdle.endDrain.look).answering .cancelled ⟨s.args.arg0, 1, 0, 0⟩)) ∧
        (s.phase = .holdoff →
          exec .cancel s = .next (closed.endDrain.answering .cancelled ⟨s.args.arg0, 1, 0, 0⟩)) ∧
        (s.phase ≠ .gap → s.phase ≠ .holdoff →
          exec .cancel s = .next (({ s.handedOver 0x04 with
            context := some { c with cancelPending := true } }).answering .cancelPending
              ⟨s.args.arg0, 1, 0, 0⟩)))

/-! ## Result Queue -/

/-- R135: TAKE of an empty queue completes EMPTY and changes nothing. R136: TAKE of a queue with a record removes the
head, writes it into the TAKEN registers, makes its buffer HOST, and is an occasion to look; its replies show the
outcome by its code of R128. -/
def Obligations.TakeHandsOverHead : Prop :=
  ∀ s : State, s.TakesCommand →
    (s.results = [] → exec .take s = .next ((s.handedOver 0x05).answering .empty ⟨0, 0, 0xFF, 0⟩)) ∧
    ∀ (r : ResultRecord) (rest : List ResultRecord), s.results = r :: rest →
      (∀ b : Nat, r.buffer = some b → s.owner b = some .result) →
      exec .take s = .next (({ s.handedOver 0x05 with
        results := rest
        taken := Taken.ofRecord r
        owners := match r.buffer with
          | some b => s.owners.set b .host
          | none => s.owners }.look).answering .ok
            ⟨BitVec.ofNat 8 r.ticket,
              (match r.outcome with
                | .done => 1 | .refused => 2 | .noAnswer => 3 | .badAnswer => 4 | .stationBusy => 5 | .conflict => 6
                | .cancelled => 7 | .aborted => 8 | .stationOffline => 9 | .stationDisabled => 10),
              (match r.buffer with
                | some b => BitVec.ofNat 8 b
                | none => 0xFF),
              BitVec.ofNat 8 rest.length⟩)

/-- R177, R127, R128, R92: the TAKEN registers hold every field of the record at its place, with the codes of R128 and of
the detail table of R92, absent fields shown as 0, and 0xFF for a buffer; the bits without a field are 0. -/
def Obligations.TakenShowsRecord : Prop :=
  ∀ (r : ResultRecord) (t : Taken), t = Taken.ofRecord r →
    r.ticket ≤ 255 → r.station ≤ 31 → r.attempts ≤ 8 → r.collisions ≤ 4 → r.length ≤ 32 → (∀ b ∈ r.buffer, b ≤ 63) →
    t.ticket.toNat = r.ticket ∧
    t.kinds.toNat % 8 = (match r.kind with
      | .write => 1 | .read => 2 | .exchange => 3 | .poll => 4) ∧
    t.kinds.getLsbD 3 = false ∧
    t.kinds.toNat / 16 = (match r.origin with
      | .request => 1 | .report => 2) ∧
    t.station.toNat % 32 = r.station ∧ t.station.getLsbD 5 = r.cancelRequested ∧
    t.station.getLsbD 6 = r.stationLost ∧ t.station.getLsbD 7 = false ∧
    t.outcome.toNat = (match r.outcome with
      | .done => 1 | .refused => 2 | .noAnswer => 3 | .badAnswer => 4 | .stationBusy => 5 | .conflict => 6
      | .cancelled => 7 | .aborted => 8 | .stationOffline => 9 | .stationDisabled => 10) ∧
    t.answerKind.toNat = (match r.answerKind with
      | none => 0 | some .accept => 1 | some .data => 2 | some .busy => 3 | some .refuse => 4 | some .report => 5
      | some .nothing => 6) ∧
    t.counts.toNat % 16 = r.attempts ∧ t.counts.toNat / 16 = r.collisions ∧
    t.detail.toNat = (match r.detail with
      | none => 0 | some .silent => 1 | some .framing => 2 | some .parity => 3 | some .markMisplaced => 4
      | some .wrongDirection => 5 | some .wrongStation => 6 | some .lengthRange => 7 | some .check => 8
      | some .wrongKind => 9 | some .truncated => 10 | some .lineBreak => 11) ∧
    t.buffer.toNat = r.buffer.getD 255 ∧
    t.length.toNat = r.length ∧
    t.refusal = r.refusal.getD 0 ∧
    t.stampLow.toNat = r.stamp.toNat % 256 ∧ t.stampHigh.toNat = r.stamp.toNat / 256

/-- R129: records leave the Result Queue by TAKE, at the head, and by the resets; every other command leaves the records
as they stand, in their order, and adds new ones behind them. The write of a code to COMMAND that has a row of its own
is left out. -/
def Obligations.ResultsLeaveOnlyByTake : Prop :=
  ∀ (c : Instr) (s t : State), c.wellFormed = true → exec c s = .next t →
    c ≠ .reset → c ≠ .resetAssert → c ≠ .powerOn → (∀ code : Byte, c ≠ .discardedCommandWrite code) →
    ∃ new : List ResultRecord,
      t.results = s.results ++ new ∨ (c = .take ∧ t.results = s.results.tail ++ new)

/-! ## Line modes -/

/-- R143: START is refused outside STOPPED, then for a configuration whose answer timeout is less than the character gap
plus 1; an accepted START makes the mode RUNNING and is an occasion to look. -/
def Obligations.StartRule : Prop :=
  ∀ s : State, s.TakesCommand →
    (s.mode ≠ .stopped →
      exec .start s = .next ((s.handedOver 0x06).answering .wrongMode ⟨if s.mode = .running then 1 else 2, 0, 0, 0⟩)) ∧
    (s.mode = .stopped → s.lineConfig.answerTimeout < s.lineConfig.characterGap + 1 →
      exec .start s = .next ((s.handedOver 0x06).answering .badConfig ⟨0, 0, 0, 0⟩)) ∧
    (s.mode = .stopped → s.lineConfig.characterGap + 1 ≤ s.lineConfig.answerTimeout →
      exec .start s = .next (({ s.handedOver 0x06 with mode := .running }.look).answering .ok ⟨1, 0, 0, 0⟩))

/-- R144, R142, R161: STOP in STOPPED raises LINE_STOPPED again; in RUNNING with nothing in flight the mode becomes
STOPPED and a HOLDOFF is abandoned; with a transaction in flight the mode becomes DRAINING; in DRAINING with one in
flight nothing changes. -/
def Obligations.StopRule : Prop :=
  ∀ s : State, s.TakesCommand →
    (s.mode = .stopped →
      exec .stop s = .next (({ s.handedOver 0x07 with
        events := { s.events with lineStopped := true } }).answering .ok ⟨0, 0, 0, 0⟩)) ∧
    (s.mode = .running → s.context = none →
      exec .stop s = .next (({ s.handedOver 0x07 with
        mode := .stopped
        phase := .idle
        timer := LineTimer.off
        stallActive := false
        events := { s.events with lineStopped := true } }).answering .ok ⟨0, 0, 0, 0⟩)) ∧
    (s.mode = .running → s.context.isSome = true →
      exec .stop s = .next (({ s.handedOver 0x07 with
        mode := .draining
        stallActive := false }).answering .ok ⟨2, 0, 0, 0⟩)) ∧
    (s.mode = .draining → s.context.isSome = true →
      exec .stop s = .next ((s.handedOver 0x07).answering .ok ⟨2, 0, 0, 0⟩))

/-- R146, R18, R103: ABORT releases DE, closes the transaction in flight (a request or broadcast posts ABORTED, its
synced flag cleared when a character of a call was sent; a poll or probe posts nothing), makes the phase IDLE and the
mode STOPPED, and raises LINE_STOPPED. -/
def Obligations.AbortRule : Prop :=
  ∀ (s released : State), s.TakesCommand → released = { s.handedOver 0x08 with de := false, tx := .quiet } →
    (s.context = none →
      exec .abort s = .next (({ released with
        mode := .stopped
        phase := .idle
        timer := LineTimer.off
        stallActive := false
        events := { s.events with lineStopped := true } }).answering .ok ⟨0, 0, 0, 0⟩)) ∧
    ∀ (c : Context) (closed : State), s.context = some c →
      (c.origin = .request →
        closed = released.close c
          (some
            { ticket := c.ticket, origin := .request, station := c.station, kind := c.kind, outcome := .aborted,
              answerKind := none, attempts := c.attempts, collisions := c.collisions, detail := c.lastDetail,
              buffer := none, length := 0, refusal := none, cancelRequested := c.cancelPending,
              stationLost := false, stamp := 0 })
          (c.station != 0 && c.callBits.isSome) →
        exec .abort s = .next (({ closed with
          mode := .stopped
          phase := .idle
          timer := LineTimer.off
          stallActive := false
          events := { closed.events with lineStopped := true } }).answering .ok
            ⟨0, BitVec.ofNat 8 c.ticket, 1, 0⟩)) ∧
      (c.origin ≠ .request → closed = released.close c none false →
        exec .abort s = .next (({ closed with
          mode := .stopped
          phase := .idle
          timer := LineTimer.off
          stallActive := false
          events := { closed.events with lineStopped := true } }).answering .ok ⟨0, 0, 0, 0⟩))

/-! ## Settings -/

/-- R109, R110: SET_LINE tests its ranges, then the mode, and writes all eight fields as one change. R148: SET_LIMITS
tests its ranges and writes all five limits as one change. -/
def Obligations.SettingsCommands : Prop :=
  ∀ (s : State) (lineRanges limitRanges : Prop), s.TakesCommand →
    (lineRanges ↔
      s.args.arg0.toNat ≤ 7 ∧ s.args.arg1.toNat ≤ 2 ∧ 2 ≤ s.args.arg2.toNat ∧
      (1 ≤ s.args.arg3.toNat ∧ s.args.arg3.toNat ≤ 15) ∧ (1 ≤ s.args.arg4.toNat ∧ s.args.arg4.toNat ≤ 15) ∧
      s.args.arg5.toNat ≤ 7 ∧ s.args.arg6.toNat ≤ 7 ∧ 8 ≤ s.args.arg7.toNat) →
    (limitRanges ↔
      (1 ≤ s.args.arg0.toNat ∧ s.args.arg0.toNat ≤ 15) ∧ (1 ≤ s.args.arg1.toNat ∧ s.args.arg1.toNat ≤ 15) ∧
      1 ≤ s.args.arg2.toNat ∧ 1 ≤ s.args.arg3.toNat ∧ (1 ≤ s.args.arg4.toNat ∧ s.args.arg4.toNat ≤ 24)) →
    (¬ lineRanges → exec .setLine s = .next ((s.handedOver 0x09).answering .badArgument ⟨0, 0, 0, 0⟩)) ∧
    (lineRanges → s.mode ≠ .stopped →
      exec .setLine s = .next ((s.handedOver 0x09).answering .wrongMode ⟨0, 0, 0, 0⟩)) ∧
    (lineRanges → s.mode = .stopped →
      exec .setLine s = .next (({ s.handedOver 0x09 with
        lineConfig :=
          { bitRate := s.args.arg0.toNat
            parity := if s.args.arg1 = 0 then .none else if s.args.arg1 = 1 then .even else .odd
            answerTimeout := s.args.arg2.toNat
            characterGap := s.args.arg3.toNat
            telegramGap := s.args.arg4.toNat
            deLead := s.args.arg5.toNat
            deTrail := s.args.arg6.toNat
            holdoff := s.args.arg7.toNat } }).answering .ok ⟨0, 0, 0, 0⟩)) ∧
    (¬ limitRanges → exec .setLimits s = .next ((s.handedOver 0x0B).answering .badArgument ⟨0, 0, 0, 0⟩)) ∧
    (limitRanges →
      exec .setLimits s = .next (({ s.handedOver 0x0B with
        limits :=
          { offlineThreshold := s.args.arg0.toNat
            pollShare := s.args.arg1.toNat
            probeInterval := s.args.arg2.toNat
            busyDelay := s.args.arg3.toNat
            watermark := s.args.arg4.toNat } }).answering .ok ⟨0, 0, 0, 0⟩))

/-- R110: the line configuration changes only while the line mode is STOPPED; RESET# and power-on put it back to its
defaults in any mode (R109). -/
def Obligations.LineConfigChangesOnlyInStopped : Prop :=
  ∀ (c : Instr) (s t : State), exec c s = .next t → t.lineConfig ≠ s.lineConfig →
    s.mode = .stopped ∨ c = .resetAssert ∨ c = .powerOn

/-- R111: GET_LINE reads a page of the configuration, the parity by its code of R109, or of the line counters, and clears
the counters with its clear flag on page 2. -/
def Obligations.GetLineRule : Prop :=
  ∀ (s : State) (counters : Replies), s.TakesCommand →
    counters =
      ⟨BitVec.ofNat 8 (s.strayCharacters % 256), BitVec.ofNat 8 (s.strayCharacters / 256),
        BitVec.ofNat 8 s.conflicts, BitVec.ofNat 8 s.breaks⟩ →
    (2 < s.args.arg0.toNat ∨ 1 < s.args.arg1.toNat ∨ (s.args.arg1 = 1 ∧ s.args.arg0 ≠ 2) →
      exec .getLine s = .next ((s.handedOver 0x0A).answering .badArgument ⟨0, 0, 0, 0⟩)) ∧
    (s.args.arg0 = 0 → s.args.arg1 = 0 →
      exec .getLine s = .next ((s.handedOver 0x0A).answering .ok
        ⟨BitVec.ofNat 8 s.lineConfig.bitRate,
          (match s.lineConfig.parity with
            | .none => 0 | .even => 1 | .odd => 2),
          BitVec.ofNat 8 s.lineConfig.answerTimeout, BitVec.ofNat 8 s.lineConfig.characterGap⟩)) ∧
    (s.args.arg0 = 1 → s.args.arg1 = 0 →
      exec .getLine s = .next ((s.handedOver 0x0A).answering .ok
        ⟨BitVec.ofNat 8 s.lineConfig.telegramGap, BitVec.ofNat 8 s.lineConfig.deLead,
          BitVec.ofNat 8 s.lineConfig.deTrail, BitVec.ofNat 8 s.lineConfig.holdoff⟩)) ∧
    (s.args.arg0 = 2 → s.args.arg1 = 0 →
      exec .getLine s = .next ((s.handedOver 0x0A).answering .ok counters)) ∧
    (s.args.arg0 = 2 → s.args.arg1 = 1 →
      exec .getLine s = .next (({ s.handedOver 0x0A with
        strayCharacters := 0
        conflicts := 0
        breaks := 0 }).answering .ok counters))

/-- R149: GET_LIMITS reads the limits, in two pages, without changing them, in every line mode. -/
def Obligations.GetLimitsRule : Prop :=
  ∀ s : State, s.TakesCommand →
    (1 < s.args.arg0.toNat →
      exec .getLimits s = .next ((s.handedOver 0x0C).answering .badArgument ⟨0, 0, 0, 0⟩)) ∧
    (s.args.arg0 = 0 →
      exec .getLimits s = .next ((s.handedOver 0x0C).answering .ok
        ⟨BitVec.ofNat 8 s.limits.offlineThreshold, BitVec.ofNat 8 s.limits.pollShare,
          BitVec.ofNat 8 s.limits.probeInterval, BitVec.ofNat 8 s.limits.busyDelay⟩)) ∧
    (s.args.arg0 = 1 →
      exec .getLimits s = .next ((s.handedOver 0x0C).answering .ok ⟨BitVec.ofNat 8 s.limits.watermark, 0, 0, 0⟩))

/-! ## Station Table -/

/-- R28 to R34, R36, R57: SET_STATION tests its arguments and changes one entry: the combined effect of the reset flags,
the availability and the poll period. A change of the state or of the poll period is an occasion to look. The reply
shows the state by its code of R20. -/
def Obligations.SetStationRule : Prop :=
  ∀ (s written : State) (a : Nat) (e after : Station) (resetEntry resetCounters disable enable : Bool)
    (code : StationState → Byte),
    (∀ p ∈ [(StationState.unknown, (0 : Byte)), (.online, 1), (.suspect, 2), (.offline, 3), (.disabled, 4)],
      code p.1 = p.2) →
    s.TakesCommand → a = s.args.arg0.toNat → e = s.station a →
    resetEntry = s.args.arg3.getLsbD 0 → resetCounters = s.args.arg3.getLsbD 1 →
    disable = (s.args.arg1 == 2) → enable = (s.args.arg1 == 1) →
    after =
      { state :=
          if disable then .disabled
          else if e.state = .disabled then (if enable then .unknown else .disabled)
          else if resetEntry then .unknown else e.state
        failCount := if resetEntry || disable then 0 else e.failCount
        callToggle := if resetEntry then false else e.callToggle
        lastReport := if resetEntry then true else e.lastReport
        synced := if resetEntry || disable then false else e.synced
        pollPeriod := s.args.arg2.toNat
        pollCountdown :=
          if s.args.arg2.toNat ≠ e.pollPeriod ∨ (enable = true ∧ e.state = .disabled) then s.args.arg2.toNat
          else e.pollCountdown
        probeCountdown := e.probeCountdown
        changed :=
          e.changed || (resetEntry && e.state != .disabled && e.state != .unknown) ||
            (disable && e.state != .disabled) || (enable && e.state == .disabled)
        answersTaken := if resetCounters then 0 else e.answersTaken
        failedAttempts := if resetCounters then 0 else e.failedAttempts
        duplicateReports := if resetCounters then 0 else e.duplicateReports
        lateCharacters := if resetCounters then 0 else e.lateCharacters } →
    written = { s.handedOver 0x0D with stations := s.stations.set (a - 1) after } →
    (a = 0 ∨ 31 < a ∨ 2 < s.args.arg1.toNat ∨ 3 < s.args.arg3.toNat →
      exec .setStation s = .next ((s.handedOver 0x0D).answering .badArgument ⟨0, 0, 0, 0⟩)) ∧
    (1 ≤ a → a ≤ 31 → s.args.arg1.toNat ≤ 2 → s.args.arg3.toNat ≤ 3 →
      exec .setStation s = .next ((if e.state = after.state ∧ e.pollPeriod = after.pollPeriod then written
        else written.look).answering .ok
          ⟨s.args.arg0, code after.state, BitVec.ofNat 8 after.failCount, 0⟩))

/-- R39: GET_STATION reads a page of an entry without changing it, the state by its code of R20. -/
def Obligations.GetStationRule : Prop :=
  ∀ (s : State) (a : Nat) (e : Station) (code : StationState → Byte),
    (∀ p ∈ [(StationState.unknown, (0 : Byte)), (.online, 1), (.suspect, 2), (.offline, 3), (.disabled, 4)],
      code p.1 = p.2) →
    s.TakesCommand → a = s.args.arg0.toNat → e = s.station a →
    (a = 0 ∨ 31 < a ∨ 2 < s.args.arg1.toNat →
      exec .getStation s = .next ((s.handedOver 0x0E).answering .badArgument ⟨0, 0, 0, 0⟩)) ∧
    (1 ≤ a → a ≤ 31 → s.args.arg1 = 0 → ∃ sequence : Byte,
      (sequence.getLsbD 0 = e.callToggle ∧ sequence.getLsbD 1 = e.lastReport ∧ sequence.getLsbD 2 = e.synced ∧
        sequence.getLsbD 3 = e.changed ∧ sequence.toNat < 16) ∧
      exec .getStation s = .next ((s.handedOver 0x0E).answering .ok
        ⟨code e.state, BitVec.ofNat 8 e.failCount, BitVec.ofNat 8 e.pollPeriod, sequence⟩)) ∧
    (1 ≤ a → a ≤ 31 → s.args.arg1 = 1 →
      exec .getStation s = .next ((s.handedOver 0x0E).answering .ok
        ⟨BitVec.ofNat 8 (e.answersTaken % 256), BitVec.ofNat 8 (e.answersTaken / 256),
          BitVec.ofNat 8 (e.failedAttempts % 256), BitVec.ofNat 8 (e.failedAttempts / 256)⟩)) ∧
    (1 ≤ a → a ≤ 31 → s.args.arg1 = 2 →
      exec .getStation s = .next ((s.handedOver 0x0E).answering .ok
        ⟨BitVec.ofNat 8 (e.duplicateReports % 256), BitVec.ofNat 8 (e.duplicateReports / 256),
          BitVec.ofNat 8 (e.lateCharacters % 256), BitVec.ofNat 8 (e.lateCharacters / 256)⟩))

/-- R37: NEXT_CHANGE reports the lowest address whose changed flag is set, the state by its code of R20, and clears that
flag, or completes NONE; the clearing that empties the change set makes STATION_CHANGE fall. -/
def Obligations.NextChangeRule : Prop :=
  ∀ (s : State) (code : StationState → Byte),
    (∀ p ∈ [(StationState.unknown, (0 : Byte)), (.online, 1), (.suspect, 2), (.offline, 3), (.disabled, 4)],
      code p.1 = p.2) →
    s.TakesCommand →
    ((∀ a : Nat, 1 ≤ a → a ≤ 31 → (s.station a).changed = false) →
      exec .nextChange s = .next ((s.handedOver 0x0F).answering .none ⟨0, 0, 0, 0⟩)) ∧
    ∀ a : Nat, 1 ≤ a → a ≤ 31 → (s.station a).changed = true →
      (∀ b : Nat, 1 ≤ b → b < a → (s.station b).changed = false) →
      exec .nextChange s = .next (({ s.handedOver 0x0F with
        stations := s.stations.set (a - 1) { s.station a with changed := false } }).answering .ok
          ⟨BitVec.ofNat 8 a, code (s.station a).state, BitVec.ofNat 8 (s.station a).failCount, 0⟩) ∧
      (s.stations.length = 31 → (∀ b : Nat, 1 ≤ b → b ≤ 31 → b ≠ a → (s.station b).changed = false) →
        ({ s with stations := s.stations.set (a - 1) { s.station a with changed := false } } : State).eventsA.getLsbD 4 =
          false)

/-- R17, R21, R22, R23, R26, R38: the entry of a station once the Station Table has taken a verdict. -/
def Obligations.StationTakesVerdict : Prop :=
  ∀ (s : State) (c : Context) (e : Station) (syncSent : Bool) (n : Nat),
    e = s.station c.station → syncSent = (c.callBits.map CallBits.syncSent).getD false →
    n = (if e.failCount < 15 then e.failCount + 1 else e.failCount) →
    (∀ (k : AnswerKind) (length : Nat) (ack : Bool) (refusal : Option Byte),
      s.entryAfter c (.valid k length ack refusal) =
        { e with
          state := if e.state = .disabled then .disabled else .online
          failCount := if e.state = .disabled then e.failCount else 0
          changed := e.changed || (e.state != .disabled && e.state != .online)
          pollCountdown := if e.state = .offline then e.pollPeriod else e.pollCountdown
          synced := e.synced || syncSent
          callToggle :=
            if (e.synced || syncSent) && (k == .accept || k == .data || k == .refuse) then !e.callToggle
            else e.callToggle
          answersTaken := if e.answersTaken < 65535 then e.answersTaken + 1 else e.answersTaken }) ∧
    ∀ v : Verdict, (v = .noAnswer ∨ ∃ d : Detail, v = .badAnswer d) →
      (e.state = .disabled →
        s.entryAfter c v =
          { e with failedAttempts := if e.failedAttempts < 65535 then e.failedAttempts + 1 else e.failedAttempts }) ∧
      (e.state = .offline →
        s.entryAfter c v =
          { e with
            failCount := n
            failedAttempts := if e.failedAttempts < 65535 then e.failedAttempts + 1 else e.failedAttempts }) ∧
      (e.state ≠ .disabled → e.state ≠ .offline → n < s.limits.offlineThreshold →
        s.entryAfter c v =
          { e with
            failCount := n
            state := .suspect
            changed := e.changed || e.state != .suspect
            failedAttempts := if e.failedAttempts < 65535 then e.failedAttempts + 1 else e.failedAttempts }) ∧
      (e.state ≠ .disabled → e.state ≠ .offline → s.limits.offlineThreshold ≤ n →
        s.entryAfter c v =
          { e with
            failCount := n
            state := .offline
            changed := true
            synced := false
            probeCountdown := s.limits.probeInterval
            failedAttempts := if e.failedAttempts < 65535 then e.failedAttempts + 1 else e.failedAttempts })

/-! ## Resets -/

/-- R40, R69, R83, R86, R108, R109, R124, R141, R142, R148, R151, R152, R165, R170: what the reset step of RESET# and
power-on leaves. -/
def Obligations.ResetValues : Prop :=
  ∀ s : State, s = State.reset →
    (s.stations.length = 31 ∧ ∀ e ∈ s.stations,
      e = { state := .unknown, failCount := 0, callToggle := false, lastReport := true, synced := false,
            pollPeriod := 0, pollCountdown := 0, probeCountdown := 0, changed := false, answersTaken := 0,
            failedAttempts := 0, duplicateReports := 0, lateCharacters := 0 }) ∧
    (s.queue = [] ∧ s.ticketCounter = 1 ∧ s.consecutive = 0 ∧ s.stallActive = false ∧ s.stallReported = false) ∧
    (s.pollPointer = 31 ∧ s.context = none ∧ s.phase = .idle ∧ s.mode = .stopped ∧ s.de = false) ∧
    (s.strayCharacters = 0 ∧ s.conflicts = 0 ∧ s.breaks = 0) ∧
    s.lineConfig =
      { bitRate := 1, parity := .none, answerTimeout := 20, characterGap := 3, telegramGap := 2, deLead := 1,
        deTrail := 1, holdoff := 40 } ∧
    s.limits = { offlineThreshold := 3, pollShare := 4, probeInterval := 10, busyDelay := 10, watermark := 16 } ∧
    (∀ b < 64, s.owner b = some .free) ∧ s.freeList = List.range 64 ∧ (∀ b i : Nat, s.bufferByte b i = 0) ∧
    (s.bufSelect = 0 ∧ s.bufOffset = 0 ∧ s.faultReg = 0) ∧
    (s.results = [] ∧ s.reserved = false ∧ s.taken = ⟨0, 0, 0, 0, 0, 0, 0, 0xFF, 0, 0, 0, 0⟩) ∧
    (s.timeCounter = 0 ∧ s.prescaler10 = 0 ∧ s.prescaler100 = 0 ∧ s.timeSnapshot = 0) ∧
    (s.eventsA = 0 ∧ s.eventsB = 0 ∧ s.enableA = 0 ∧ s.enableB = 0 ∧ s.irqLow = false) ∧
    (s.args = ⟨0, 0, 0, 0, 0, 0, 0, 0⟩ ∧ s.latch = s.args ∧ s.commandCode = 0 ∧ s.unit = .initialising ∧
      s.cmdResult = .ok ∧ s.replies = ⟨0, 0, 0, 0⟩)

/-- R41, R153, R154, R155, R170: the reset step of the RESET command, which retains the line configuration, the limits,
the poll periods, the DISABLED states and the receiver; that of RESET# and power-on; the release of RESET#; and the end
of initialisation, with no event raised. The data last driven on D7..D0 is the model's own field (log entry 14), the
waiting commands stay (log entry 2), the host's pins stay and an access in progress is dropped (log entry 18), and the
values to which the sender, the reception, the line timer and the receiver are reset are the model's choice (log entry
20). -/
def Obligations.ResetSteps : Prop :=
  ∀ s : State,
    (s.TakesCommand →
      exec .reset s = .next { State.reset with
        port := ⟨s.port.cs, s.port.rd, s.port.wr, false, .none⟩
        readData := s.readData
        commandCode := 0x10
        stations := s.stations.map fun e =>
          { Station.afterReset with
            state := if e.state = .disabled then .disabled else .unknown
            pollPeriod := e.pollPeriod
            pollCountdown := e.pollPeriod }
        receiver := s.receiver
        lineConfig := s.lineConfig
        limits := s.limits
        pending := s.pending }) ∧
    exec .resetAssert s = .next { State.reset with
      resetHeld := true
      port := ⟨s.port.cs, s.port.rd, s.port.wr, false, .none⟩
      pending := s.pending } ∧
    (s.resetHeld = true → exec .resetRelease s = .next { s with resetHeld := false }) ∧
    (s.resetHeld = false →
      exec .powerOn s = .next { State.reset with
        port := ⟨s.port.cs, s.port.rd, s.port.wr, false, .none⟩
        pending := s.pending }) ∧
    (s.resetHeld = false → s.unit = .initialising →
      exec .initialisationEnd s = .next { s with
        unit := .ready
        cmdResult := .ok
        replies := ⟨0, 0, 0, 0⟩
        owners := List.replicate 64 .free
        freeList := List.range 64
        memory := [] })

/-! ## Events and the host window -/

/-- R158: a write to EVENTS_A or EVENTS_B clears each latched flag of that register whose bit is 1 in the value, and
changes nothing else: no flag of the other register, no level flag. In a write by the pins, the flags stand as they were
when the access began, the raises that come while it is in progress are held back, and they are applied after the clear
at its end. That flags are held so in every write access, and that a fall in the change that ends an access lets none
begin, is the model's reading and choice (log entry 18). -/
def Obligations.EventsWriteClears : Prop :=
  ∀ (s : State) (bank : EventBank) (value : Byte), s.resetHeld = false →
    (∃ t : State,
      exec (.eventsWrite bank value) s = .next t ∧ t = { s with events := t.events } ∧
      ∀ f : LatchedFlag,
        t.events.get f = (s.events.get f && !(decide (f.place.1 = bank) && value.getLsbD f.place.2))) ∧
    ∀ (standing : Events) (p : Pins), s.port.access = .write standing → s.flags = standing ∧
      (∀ f : LatchedFlag, (s.raise f).flags = standing ∧ (s.raise f).events.get f = true) ∧
      ((p.cs = true ∨ p.wr = true) → p.address = (if bank = .a then 0x02 else 0x03) → p.data = value → ∃ t : State,
        s.pinChange p = t ∧ t = { s with port := ⟨p.cs, p.rd, p.wr, false, .none⟩, events := t.events } ∧
        ∀ f : LatchedFlag,
          t.events.get f =
            ((standing.get f && !(decide (f.place.1 = bank) && value.getLsbD f.place.2)) || s.events.get f))

/-- R156, R159, R164, R167, R169, R153, and the codes of R142, R86 and R175: STATUS shows its five fields; EVENTS_A and
EVENTS_B show each latched flag at its place, the two level flags as their conditions stand, and 0 in bits 4..7 of
EVENTS_B; the latched flags are those of the beginning of a write access while one is in progress (R158); IRQ# is low
exactly while some flag is both set and enabled; and every offset of the window reads its register. While RESET# is held
low no offset reads anything. -/
def Obligations.RegistersShowState : Prop :=
  ∀ s : State,
    (s.status.toNat % 4 = (match s.mode with
        | .stopped => 0 | .running => 1 | .draining => 2) ∧
      s.status.toNat / 4 % 8 = (match s.phase with
        | .idle => 0 | .gap => 1 | .calling => 2 | .waiting => 3 | .receiving => 4 | .settling => 5 | .holdoff => 6) ∧
      (s.status.getLsbD 5 = true ↔ s.unit ≠ .ready) ∧ s.status.getLsbD 6 = s.receiver.lineInBreak ∧
      s.status.getLsbD 7 = s.stallActive) ∧
    ((∀ standing : Events, s.port.access ≠ .write standing) → s.flags = s.events) ∧
    (∀ f : LatchedFlag,
      (if f.place.1 = .a then s.eventsA else s.eventsB).getLsbD f.place.2 = s.flags.get f) ∧
    (s.eventsA.getLsbD 0 = s.flags.commandDone ∧ s.eventsA.getLsbD 1 = s.flags.commandOverrun ∧
      s.eventsA.getLsbD 3 = s.flags.resultsHigh ∧ s.eventsA.getLsbD 5 = s.flags.requestSpace ∧
      s.eventsA.getLsbD 6 = s.flags.poolEmpty ∧ s.eventsA.getLsbD 7 = s.flags.stall ∧
      s.eventsB.getLsbD 0 = s.flags.lineStopped ∧ s.eventsB.getLsbD 1 = s.flags.conflict ∧
      s.eventsB.getLsbD 2 = s.flags.lineBreak ∧ s.eventsB.getLsbD 3 = s.flags.accessFault) ∧
    (s.eventsA.getLsbD 2 = true ↔ s.results ≠ []) ∧
    (s.eventsA.getLsbD 4 = true ↔ ∃ e ∈ s.stations, e.changed = true) ∧
    s.eventsB.toNat < 16 ∧
    (s.irqLow = true ↔
      ∃ i < 8, (s.eventsA.getLsbD i = true ∧ s.enableA.getLsbD i = true) ∨
        (s.eventsB.getLsbD i = true ∧ s.enableB.getLsbD i = true)) ∧
    (s.resetHeld = true → ∀ o : Offset, s.readRegister o = none) ∧
    (s.resetHeld = false →
      (∀ q ∈ [((0x00 : Offset), (0x3A : Byte)), (0x01, s.status), (0x02, s.eventsA), (0x03, s.eventsB),
          (0x04, s.enableA), (0x05, s.enableB), (0x06, s.commandCode),
          (0x07, match s.cmdResult with
            | .ok => 0 | .cancelled => 1 | .cancelPending => 2 | .queueFull => 3 | .notHost => 4 | .badArgument => 5
            | .notFound => 6 | .empty => 7 | .wrongMode => 8 | .badConfig => 9 | .poolEmpty => 10 | .none => 11
            | .unknownCommand => 12),
          (0x08, s.args.arg0), (0x09, s.args.arg1), (0x0A, s.args.arg2), (0x0B, s.args.arg3), (0x0C, s.args.arg4),
          (0x0D, s.args.arg5), (0x0E, s.args.arg6), (0x0F, s.args.arg7),
          (0x10, s.replies.reply0), (0x11, s.replies.reply1), (0x12, s.replies.reply2), (0x13, s.replies.reply3),
          (0x14, s.bufSelect), (0x15, BitVec.ofNat 8 s.bufOffset.toNat),
          (0x17, BitVec.ofNat 8 s.freeList.length), (0x18, BitVec.ofNat 8 s.queue.length),
          (0x19, BitVec.ofNat 8 s.results.length),
          (0x1A, BitVec.ofNat 8 (s.timeCounter.toNat % 256)), (0x1B, s.timeSnapshot), (0x1C, s.faultReg)],
        s.readRegister q.1 = some q.2) ∧
      (∀ q ∈ [((0x20 : Offset), s.taken.ticket), (0x21, s.taken.kinds), (0x22, s.taken.station),
          (0x23, s.taken.outcome), (0x24, s.taken.answerKind), (0x25, s.taken.counts), (0x26, s.taken.detail),
          (0x27, s.taken.buffer), (0x28, s.taken.length), (0x29, s.taken.refusal), (0x2A, s.taken.stampLow),
          (0x2B, s.taken.stampHigh)],
        s.readRegister q.1 = some q.2) ∧
      (∀ t : State, exec .bufDataRead s = .next t → s.readRegister 0x16 = some t.readData) ∧
      ∀ o : Offset, (0x1D ≤ o.toNat ∧ o.toNat ≤ 0x1F) ∨ 0x2C ≤ o.toNat → s.readRegister o = some 0)

/-- R120, R152, R163, R166, R167, R171: the accesses that write one register: an enable register; BUF_SELECT, which loads
BUF_OFFSET with 0; BUF_OFFSET, modulo 32; the snapshot of TIME_HI by a read of TIME_LO; an argument register. A write to
any other offset without a row of its own is ignored. By the pins, one strobe that is low with CS# low, after a fall of
CS# or a strobe, begins an access: a read is taken there, as its row, and drives its value until CS# or RD# rises; a
write is taken, as its row, when CS# or WR# rises, with the address and data of that moment; no other change of the pins
does anything. The byte a read drives stands in a field of the model's own (log entry 14), as does the port between two
changes of the pins; that a fall in the change that ends an access lets none begin, and that the raises held back are
applied before the write's row, so that a RESET clears them, is the model's choice (log entry 18). -/
def Obligations.WindowRegisterAccesses : Prop :=
  ∀ (s : State) (value : Byte), s.resetHeld = false →
    exec (.enableWrite .a value) s = .next { s with enableA := value } ∧
    exec (.enableWrite .b value) s = .next { s with enableB := BitVec.ofNat 8 (value.toNat % 16) } ∧
    exec (.bufSelectWrite value) s = .next { s with bufSelect := value, bufOffset := 0 } ∧
    exec (.bufOffsetWrite value) s = .next { s with bufOffset := BitVec.ofNat 5 (value.toNat % 32) } ∧
    exec .timeLoRead s =
      .next { s with
        readData := BitVec.ofNat 8 (s.timeCounter.toNat % 256)
        timeSnapshot := BitVec.ofNat 8 (s.timeCounter.toNat / 256) } ∧
    (∀ o : Offset, isPlainOffset o = true →
      (8 ≤ o.toNat → o.toNat ≤ 15 → ∃ t : State,
        exec (.registerWrite o value) s = .next t ∧ t = { s with args := t.args } ∧ t.readRegister o = some value ∧
        ∀ o' : Offset, o' ≠ o → t.readRegister o' = s.readRegister o') ∧
      (o.toNat < 8 ∨ 15 < o.toNat → exec (.registerWrite o value) s = .next s)) ∧
    ∀ (p : Pins) (armed : Bool),
      (armed = true ↔ s.port.armed = true ∨
        (p.cs = false ∧
          (s.port.cs = true ∨ (s.port.rd = true ∧ p.rd = false) ∨ (s.port.wr = true ∧ p.wr = false)))) →
      (s.port.access = .none →
        (armed = false ∨ p.cs = true ∨ p.rd = p.wr →
          s.pinChange p = { s with port := ⟨p.cs, p.rd, p.wr, armed, .none⟩ }) ∧
        (armed = true → p.cs = false → p.rd = false → p.wr = true →
          (∀ c : Instr, hostReadRow p.address = some c →
            exec c { s with port := ⟨false, false, true, false, .read⟩ } = .next (s.pinChange p)) ∧
          (∀ read : Byte, hostReadRow p.address = none → s.readRegister p.address = some read →
            s.pinChange p = { s with port := ⟨false, false, true, false, .read⟩, readData := read })) ∧
        (armed = true → p.cs = false → p.rd = true → p.wr = false →
          s.pinChange p =
            { s with port := ⟨false, true, false, false, .write s.events⟩, events := Events.clear })) ∧
      (s.port.access = .read → s.busDrive = some s.readData ∧
        s.pinChange p =
          { s with port := ⟨p.cs, p.rd, p.wr, false, if p.cs = true ∨ p.rd = true then .none else .read⟩ }) ∧
      (s.port.access ≠ .read → s.busDrive = none) ∧
      ∀ standing : Events, s.port.access = .write standing →
        (p.cs = false → p.wr = false →
          s.pinChange p = { s with port := ⟨p.cs, p.rd, p.wr, false, .write standing⟩ }) ∧
        ∀ merged : Events, (p.cs = true ∨ p.wr = true) → p.address ≠ 0x02 → p.address ≠ 0x03 →
          (∀ f : LatchedFlag, merged.get f = (standing.get f || s.events.get f)) →
          exec (hostWriteRow (s.unit != .ready) p.address p.data)
            { s with port := ⟨p.cs, p.rd, p.wr, false, .none⟩, events := merged } = .next (s.pinChange p)

/-- R120, R121, R122: a BUF_DATA access is tested against the ownership of the selected buffer; a permitted read returns
the byte, a permitted write changes that byte of message memory and no other; a fault rewrites FAULT and raises
ACCESS_FAULT; every access advances BUF_OFFSET from 31 to 0. The byte a read drives stands in a field of the model's
own (log entry 14). -/
def Obligations.BufDataAccess : Prop :=
  ∀ (s : State) (value : Byte) (select : Nat), s.resetHeld = false → select = s.bufSelect.toNat →
    (select < 64 → (s.owner select = some .host ∨ s.owner select = some .result) →
      exec .bufDataRead s = .next { s with
        readData := s.bufferByte select s.bufOffset.toNat
        bufOffset := s.bufOffset + 1 }) ∧
    (64 ≤ select ∨ (s.owner select ≠ some .host ∧ s.owner select ≠ some .result) →
      exec .bufDataRead s = .next { s with
        readData := 0
        bufOffset := s.bufOffset + 1
        faultReg := BitVec.ofNat 8 (select % 64 + (if 63 < select then 64 else 0))
        events := { s.events with accessFault := true } }) ∧
    (select < 64 → s.owner select = some .host → s.memory.wf = true → ∃ t : State,
      exec (.bufDataWrite value) s = .next t ∧
      t = { s with memory := t.memory, bufOffset := s.bufOffset + 1 } ∧
      t.memory.read (32 * select + s.bufOffset.toNat) = value ∧
      ∀ a : Nat, a ≠ 32 * select + s.bufOffset.toNat → t.memory.read a = s.memory.read a) ∧
    (64 ≤ select ∨ s.owner select ≠ some .host →
      exec (.bufDataWrite value) s = .next { s with
        bufOffset := s.bufOffset + 1
        faultReg := BitVec.ofNat 8 (select % 64 + (if 63 < select then 64 else 0) + 128)
        events := { s.events with accessFault := true } })

/-! ## The line: sending -/

/-- R1, R2, R5 to R10, R16, R88, R89: the timers of a call and the end of a sent character. In GAP the timer's expiry
asserts DE and begins the lead; the lead's end sends the first start bit, which fixes the call bits and, in a synchronising call, sets the
entry's toggles to their sync values; each matched character is followed by the next, back to back; after Check B the
trail runs, and its end releases DE, counts the attempt, and awaits the answer, or settles after a broadcast. A lead of
0 begins the call on entry; that a trail of 0 ends it in the step of the last stop bit is log entry 9. The characters
are those of R5 to R9, the control character laid out as R7 and R10 give, and TXD carries each as its frame: start bit,
data, mark bit, the parity bit of R2, stop bit; it is at mark while no character goes out. -/
def Obligations.CallTimersRule : Prop :=
  ∀ (s : State) (c : Context) (e : Station) (bits : CallBits), s.resetHeld = false → s.context = some c →
    e = s.station c.station →
    bits = c.callBits.getD
      (if c.station = 0 then ⟨false, false, false⟩
        else if c.origin = .probe ∨ e.synced = false then ⟨true, false, true⟩
        else ⟨false, e.callToggle, e.lastReport⟩) →
    (s.phase = .gap → s.lineQuiet = true → s.lineConfig.deLead ≠ 0 →
      exec .telegramGapExpiry s = .next { s with
        phase := .calling
        de := true
        tx := .lead
        timer := ⟨.deLead, s.lineConfig.deLead⟩ }) ∧
    (s.phase = .gap → s.lineQuiet = true → s.lineConfig.deLead = 0 →
      exec .telegramGapExpiry s = .next { s with
        phase := .calling
        de := true
        tx := .sending 0 (BitVec.ofNat 8 (c.station % 32)) true false
        timer := LineTimer.off
        context := some { c with callBits := some bits }
        stations := if bits.syncSent then
            (s.setStation c.station { e with callToggle := false, lastReport := true }).stations
          else s.stations }) ∧
    (s.tx = .lead →
      exec .deLeadExpiry s = .next { s with
        tx := .sending 0 (BitVec.ofNat 8 (c.station % 32)) true false
        timer := LineTimer.off
        context := some { c with callBits := some bits }
        stations := if bits.syncSent then
            (s.setStation c.station { e with callToggle := false, lastReport := true }).stations
          else s.stations }) ∧
    (∀ (i : Nat) (d : Byte) (m : Bool) (control checkA checkB : Byte) (payload covered characters : List Byte),
      s.tx = .sending i d m true →
      (control.toNat % 8 = (match c.kind with
          | .write => 1 | .read => 2 | .exchange => 3 | .poll => 4) ∧
        control.getLsbD 3 = bits.toggle ∧ control.getLsbD 4 = bits.ack ∧ control.getLsbD 5 = bits.syncSent ∧
        control.getLsbD 6 = false ∧ control.getLsbD 7 = false) →
      payload = c.outBuffer.elim [] (fun b => (List.range c.outLength).map (s.bufferByte b)) →
      covered = control :: BitVec.ofNat 8 payload.length :: payload →
      covered.foldl (· + ·) 0 + checkA = 0 → checkB = covered.foldl (· ^^^ ·) 0 →
      characters = BitVec.ofNat 8 (c.station % 32) :: (covered ++ [checkA, checkB]) →
      (∀ next : Byte, characters[i + 1]? = some next →
        exec .characterSent s = .next { s with tx := .sending (i + 1) next false false }) ∧
      (characters.length ≤ i + 1 → s.lineConfig.deTrail ≠ 0 →
        exec .characterSent s = .next { s with tx := .trail, timer := ⟨.deTrail, s.lineConfig.deTrail⟩ }) ∧
      (characters.length ≤ i + 1 → s.lineConfig.deTrail = 0 → c.station ≠ 0 →
        exec .characterSent s = .next { s with
          de := false
          tx := .quiet
          phase := .waiting
          timer := ⟨.answer, s.lineConfig.answerTimeout * s.characterBits⟩
          context := some { c with attempts := c.attempts + 1 } }) ∧
      (characters.length ≤ i + 1 → s.lineConfig.deTrail = 0 → c.station = 0 →
        exec .characterSent s = .next { s with
          de := false
          tx := .quiet
          phase := .settling
          timer := ⟨.settle, s.lineConfig.telegramGap * s.characterBits⟩
          context := some { c with attempts := c.attempts + 1 } })) ∧
    (∀ (i : Nat) (d : Byte) (m echoed : Bool) (nine : List Bool), s.tx = .sending i d m echoed →
      nine = (List.range 8).map d.getLsbD ++ [m] →
      ∃ parity : List Bool, s.txdFrame = [false] ++ nine ++ parity ++ [true] ∧
        (s.lineConfig.parity = .none → parity = []) ∧
        (s.lineConfig.parity = .even → parity.length = 1 ∧ (nine ++ parity).count true % 2 = 0) ∧
        (s.lineConfig.parity = .odd → parity.length = 1 ∧ (nine ++ parity).count true % 2 = 1)) ∧
    ((s.tx = .quiet ∨ s.tx = .lead ∨ s.tx = .trail) → s.txdFrame = [true]) ∧
    (s.tx = .trail → c.station ≠ 0 →
      exec .deTrailExpiry s = .next { s with
        de := false
        tx := .quiet
        phase := .waiting
        timer := ⟨.answer, s.lineConfig.answerTimeout * s.characterBits⟩
        context := some { c with attempts := c.attempts + 1 } }) ∧
    (s.tx = .trail → c.station = 0 →
      exec .deTrailExpiry s = .next { s with
        de := false
        tx := .quiet
        phase := .settling
        timer := ⟨.settle, s.lineConfig.telegramGap * s.characterBits⟩
        context := some { c with attempts := c.attempts + 1 } })

/-- R1, R5, R7, R9, R16, R88, R89, R90: from GAP, with every character read back as sent, the whole call goes out, one
character for each of its telegram, and the attempt awaits its answer: DE is released, the attempt is counted, the call
bits are fixed, the entry's toggles hold their sync values after a synchronising call, and nothing else has changed. A
trail of 0 needs no expiry of its own (log entry 9). -/
def Obligations.CallIsSentWhole : Prop :=
  ∀ (s : State) (c : Context) (e : Station) (bits : CallBits) (call : List Byte), s.resetHeld = false →
    s.phase = .gap → s.receiver = Receiver.ready → s.context = some c → 1 ≤ c.station → c.station ≤ 31 →
    e = s.station c.station →
    bits = c.callBits.getD
      (if c.origin = .probe ∨ e.synced = false then ⟨true, false, true⟩ else ⟨false, e.callToggle, e.lastReport⟩) →
    call = telegram (BitVec.ofNat 8 c.station) (callControl c.kind bits) (s.payload c.outBuffer c.outLength) →
    execAll
      ([Instr.telegramGapExpiry] ++ (if s.lineConfig.deLead = 0 then [] else [.deLeadExpiry]) ++
        echoArrivals s.lineConfig.parity call ++ (if s.lineConfig.deTrail = 0 then [] else [.deTrailExpiry])) s =
      .next { s with
        phase := .waiting
        de := false
        tx := .quiet
        timer := ⟨.answer, s.lineConfig.answerTimeout * s.characterBits⟩
        context := some { c with callBits := some bits, attempts := c.attempts + 1 }
        stations := if bits.syncSent then
            (s.setStation c.station { e with callToggle := false, lastReport := true }).stations
          else s.stations }

/-- R4, R90, R106: while DE is asserted, a delivered character that equals the sent one awaiting its echo, in value and
mark bit, without framing or parity failure, matches; any other, a space character too, is a collision, and so is a
stop bit that ends before the echo has come. R1, R2, R106, R110: a character passes its parity check when the 1 bits of
its data, mark and parity bit are even in number under EVEN, odd under ODD, and always under NONE, by the setting in
force at its start bit; it is a space character when every sampled bit is space; it lasts 11 bit times, or 12 with
parity. -/
def Obligations.EchoCheckRule : Prop :=
  (∀ (d : Byte) (m p st : Bool) (ones : Nat), ones = ((List.range 8).map d.getLsbD ++ [m, p]).count true →
    Parity.none.passes d m p = true ∧
    (Parity.even.passes d m p = true ↔ ones % 2 = 0) ∧ (Parity.odd.passes d m p = true ↔ ones % 2 = 1) ∧
    ∀ q : Parity, q.isSpaceCharacter d m p st = true ↔
      d = 0 ∧ m = false ∧ (q ≠ .none → p = false) ∧ st = false) ∧
  (∀ s : State,
    (s.lineConfig.parity = .none → s.characterBits = 11) ∧ (s.lineConfig.parity ≠ .none → s.characterBits = 12) ∧
    (∀ f ∈ s.receiver.inCharacter, s.rxParity = f.parity) ∧
    (s.receiver.canDeliver = true ↔
      s.receiver.heldSpace = false ∧ s.receiver.awaitMark = false ∧ s.receiver.lineInBreak = false) ∧
    (s.receiver.canStart = true ↔ s.receiver.inCharacter = none ∧ s.receiver.canDeliver = true)) ∧
  ∀ (s rx : State) (d : Byte) (m p st : Bool), s.resetHeld = false → s.de = true →
    s.receiver.canDeliver = true →
    rx = { s with receiver := { s.receiver with inCharacter := none, awaitMark := !st } } →
    (∀ i : Nat, s.tx = .sending i d m false → st = true → s.rxParity.passes d m p = true →
      exec (.characterDelivered d m p st) s = .next { rx with tx := .sending i d m true }) ∧
    (((∀ i : Nat, s.tx ≠ .sending i d m false) ∨ st = false ∨ s.rxParity.passes d m p = false) →
      exec (.characterDelivered d m p st) s = .next rx.collide) ∧
    ∀ (i : Nat) (sent : Byte) (mark : Bool), s.tx = .sending i sent mark false →
      exec .echoMissing s = .next s.collide

/-- R91, R80, R54, R102, R145: a collision releases DE, counts, and enters HOLDOFF; below the fourth, with no cancel
pending, the transaction stays in flight. The fourth raises CONFLICT and the conflicts counter and ends it: CONFLICT, or
CANCELLED if a cancel is pending; below the fourth a pending cancel ends it CANCELLED; a poll or probe ends silently. The
fourth ends a broadcast CONFLICT even with a cancel pending, by its own words in R91, where R54 and R55 say CANCELLED
of every collision (log entry 25). -/
def Obligations.CollisionRule : Prop :=
  ∀ (s held raised : State) (c counted : Context) (clear : Bool), s.context = some c →
    counted = { c with collisions := c.collisions + 1 } →
    held = { s with
      de := false
      tx := .quiet
      phase := .holdoff
      timer := ⟨.holdoff, s.lineConfig.holdoff * s.characterBits⟩
      context := some counted } →
    raised = { held with
      conflicts := if s.conflicts < 255 then s.conflicts + 1 else s.conflicts
      events := { s.events with conflict := true } } →
    clear = (c.station != 0 && c.callBits.isSome && !c.hasValidAnswer) →
    (c.collisions + 1 < 4 → c.cancelPending = false → s.collide = held) ∧
    (c.collisions + 1 < 4 → c.cancelPending = true → c.origin = .request →
      s.collide = (held.close counted (some (counted.record .cancelled)) clear).endDrain) ∧
    (c.collisions + 1 < 4 → c.cancelPending = true → c.origin ≠ .request →
      s.collide = (held.close counted none false).endDrain) ∧
    (4 ≤ c.collisions + 1 → c.origin = .request →
      s.collide = (raised.close counted
        (some (counted.record (if c.cancelPending = true ∧ c.station ≠ 0 then .cancelled else .conflict)))
        clear).endDrain) ∧
    (4 ≤ c.collisions + 1 → c.origin ≠ .request → s.collide = (raised.close counted none false).endDrain)

/-! ## The line: receiving -/

/-- R4, R93, R94, R97, R98, R106, R110: a confirmed start bit puts the receiver inside a character, at the bit rate and
parity in force; in WAITING the phase becomes RECEIVING, the answer timer stops, the accumulators start afresh, and in a later
attempt the answer buffer is cleared (log entry 10). The end of a held-back space is a framing failure: a stray in IDLE,
GAP and HOLDOFF and in STOPPED, the failure FRAMING of an answer not yet failed, a character that only loads the
character-gap timer in an attempt that has failed (R97), and a late character in SETTLING (R98). The return to mark after
a framing failure lets the receiver start again. -/
def Obligations.StartBitsRule : Prop :=
  ∀ (s : State) (inside : Receiver), s.resetHeld = false →
    inside = { s.receiver with inCharacter := some ⟨s.lineConfig.bitRate, s.lineConfig.parity⟩ } →
    (s.receiver.canStart = true → s.phase ≠ .waiting →
      exec .confirmedStartBit s = .next { s with receiver := inside }) ∧
    (s.receiver.canStart = true → s.phase = .waiting → ∃ t : State,
      exec .confirmedStartBit s = .next t ∧
      t = { s with
        receiver := inside
        phase := .receiving
        timer := LineTimer.off
        reception := Reception.fresh
        memory := t.memory } ∧
      (∀ (c : Context) (b : Nat), s.context = some c → c.answerBuffer = some b → c.lastDetail.isSome = true →
        (∀ i < 32, t.bufferByte b i = 0) ∧
        ∀ a : Nat, (a < 32 * b ∨ 32 * b + 32 ≤ a) → t.memory.read a = s.memory.read a) ∧
      ((∀ c ∈ s.context, c.answerBuffer = none ∨ c.lastDetail = none) → t.memory = s.memory)) ∧
    (s.receiver.heldSpace = true → s.receiver.lineInBreak = false → s.de = false →
      (s.mode = .stopped ∨ s.phase = .idle →
        exec .spaceCharacter s = .next { s with
          receiver := { s.receiver with heldSpace := false }
          strayCharacters := if s.strayCharacters < 65535 then s.strayCharacters + 1 else s.strayCharacters }) ∧
      (s.mode ≠ .stopped → s.phase = .gap →
        exec .spaceCharacter s = .next { s with
          receiver := { s.receiver with heldSpace := false }
          strayCharacters := if s.strayCharacters < 65535 then s.strayCharacters + 1 else s.strayCharacters
          timer := ⟨.telegramGap, s.lineConfig.telegramGap * s.characterBits⟩ }) ∧
      (s.mode ≠ .stopped → s.phase = .holdoff →
        exec .spaceCharacter s = .next { s with
          receiver := { s.receiver with heldSpace := false }
          strayCharacters := if s.strayCharacters < 65535 then s.strayCharacters + 1 else s.strayCharacters
          timer := ⟨.holdoff, s.lineConfig.holdoff * s.characterBits⟩ }) ∧
      ∀ c : Context, s.mode ≠ .stopped → s.context = some c →
        (s.phase = .receiving → c.verdict = none →
          exec .spaceCharacter s = .next { s with
            receiver := { s.receiver with heldSpace := false }
            context := some { c with verdict := some (.badAnswer .framing), lastDetail := some .framing }
            timer := ⟨.characterGap, s.lineConfig.characterGap * s.characterBits⟩ }) ∧
        (s.phase = .receiving → c.verdict.isSome = true →
          exec .spaceCharacter s = .next { s with
            receiver := { s.receiver with heldSpace := false }
            timer := ⟨.characterGap, s.lineConfig.characterGap * s.characterBits⟩ }) ∧
        (s.phase = .settling → c.station = 0 →
          exec .spaceCharacter s = .next { s with
            receiver := { s.receiver with heldSpace := false }
            strayCharacters := if s.strayCharacters < 65535 then s.strayCharacters + 1 else s.strayCharacters
            timer := ⟨.settle, s.lineConfig.telegramGap * s.characterBits⟩ }) ∧
        (s.phase = .settling → c.station ≠ 0 →
          exec .spaceCharacter s = .next { s with
            receiver := { s.receiver with heldSpace := false }
            stations := (s.setStation c.station { s.station c.station with
              lateCharacters := if (s.station c.station).lateCharacters < 65535 then
                  (s.station c.station).lateCharacters + 1
                else (s.station c.station).lateCharacters }).stations
            timer := ⟨.settle, s.lineConfig.telegramGap * s.characterBits⟩ })) ∧
    (s.receiver.awaitMark = true → s.receiver.lineInBreak = false →
      exec .rxdReturnToMark s = .next { s with receiver := { s.receiver with awaitMark := false } })

/-- R104, R105, R108, R98, R38: a delivered character outside a call and an answer. In IDLE, GAP and HOLDOFF a clean
address character is a conflict and enters HOLDOFF, any other is a stray and reloads the quiet timer; in STOPPED it is
only counted; in SETTLING it is late, counted at the station or, after a broadcast, as a stray. A space character is
held back instead, except that it is not in CALLING (R106). -/
def Obligations.CharactersOutsideAnAnswer : Prop :=
  ∀ (s rx : State) (d : Byte) (m p st conflict : Bool) (strays conflicts : Nat), s.resetHeld = false → s.de = false →
    s.receiver.canDeliver = true →
    rx = { s with receiver := { s.receiver with inCharacter := none, awaitMark := !st } } →
    conflict = (st && s.rxParity.passes d m p && m) →
    strays = (if s.strayCharacters < 65535 then s.strayCharacters + 1 else s.strayCharacters) →
    conflicts = (if s.conflicts < 255 then s.conflicts + 1 else s.conflicts) →
    (s.rxParity.isSpaceCharacter d m p st = true → s.phase ≠ .waiting →
      exec (.characterDelivered d m p st) s =
        .next { s with receiver := { s.receiver with inCharacter := none, heldSpace := true } }) ∧
    (s.rxParity.isSpaceCharacter d m p st = false →
      (s.mode ≠ .stopped → (s.phase = .idle ∨ s.phase = .gap ∨ s.phase = .holdoff) → conflict = true →
        exec (.characterDelivered d m p st) s = .next { rx with
          conflicts := conflicts
          events := { s.events with conflict := true }
          phase := .holdoff
          timer := ⟨.holdoff, s.lineConfig.holdoff * s.characterBits⟩ }) ∧
      (s.mode ≠ .stopped → s.phase = .idle → conflict = false →
        exec (.characterDelivered d m p st) s = .next { rx with strayCharacters := strays }) ∧
      (s.mode ≠ .stopped → s.phase = .gap → conflict = false →
        exec (.characterDelivered d m p st) s = .next { rx with
          strayCharacters := strays
          timer := ⟨.telegramGap, s.lineConfig.telegramGap * s.characterBits⟩ }) ∧
      (s.mode ≠ .stopped → s.phase = .holdoff → conflict = false →
        exec (.characterDelivered d m p st) s = .next { rx with
          strayCharacters := strays
          timer := ⟨.holdoff, s.lineConfig.holdoff * s.characterBits⟩ }) ∧
      (s.mode = .stopped → conflict = true →
        exec (.characterDelivered d m p st) s = .next { rx with
          conflicts := conflicts
          events := { s.events with conflict := true } }) ∧
      (s.mode = .stopped → conflict = false →
        exec (.characterDelivered d m p st) s = .next { rx with strayCharacters := strays }) ∧
      ∀ c : Context, s.mode ≠ .stopped → s.phase = .settling → s.context = some c →
        (c.station = 0 →
          exec (.characterDelivered d m p st) s = .next { rx with
            strayCharacters := strays
            timer := ⟨.settle, s.lineConfig.telegramGap * s.characterBits⟩ }) ∧
        (c.station ≠ 0 →
          exec (.characterDelivered d m p st) s = .next { rx with
            stations := (s.setStation c.station { s.station c.station with
              lateCharacters := if (s.station c.station).lateCharacters < 65535 then
                  (s.station c.station).lateCharacters + 1
                else (s.station c.station).lateCharacters }).stations
            timer := ⟨.settle, s.lineConfig.telegramGap * s.characterBits⟩ }))

/-- R6, R8, R92, R94, R97: a character of an answer that fails a test makes the attempt BAD_ANSWER with the detail of its
first failed test: framing, then parity, then the mark bit, then the field test of its position. An attempt that has
failed interprets no further character: only the character-gap timer is loaded again. -/
def Obligations.AnswerCharacterTests : Prop :=
  ∀ (s rx : State) (c : Context) (d : Byte) (m p st first : Bool), s.resetHeld = false → s.de = false →
    s.mode ≠ .stopped → s.phase = .receiving → s.context = some c → s.receiver.canDeliver = true →
    s.rxParity.isSpaceCharacter d m p st = false → first = (s.reception.taken == 0) →
    rx = { s with
      receiver := { s.receiver with inCharacter := none, awaitMark := !st }
      timer := ⟨.characterGap, s.lineConfig.characterGap * s.characterBits⟩ } →
    (c.verdict.isSome = true → exec (.characterDelivered d m p st) s = .next rx) ∧
    ∀ x : Detail, c.verdict = none →
      (x = .framing ∧ st = false) ∨
      (x = .parity ∧ st = true ∧ s.rxParity.passes d m p = false) ∨
      (x = .markMisplaced ∧ st = true ∧ s.rxParity.passes d m p = true ∧ m ≠ first) ∨
      (st = true ∧ s.rxParity.passes d m p = true ∧ m = first ∧
        ((x = .wrongDirection ∧ first = true ∧ d.toNat / 32 ≠ 4) ∨
          (x = .wrongStation ∧ first = true ∧ d.toNat / 32 = 4 ∧ d.toNat % 32 ≠ c.station) ∨
          (x = .lengthRange ∧ s.reception.taken = 2 ∧ 32 < d.toNat))) →
      exec (.characterDelivered d m p st) s =
        .next { rx with context := some { c with verdict := some (.badAnswer x), lastDetail := some x } }

/-- R5, R6, R8, R9, R12, R93, R94, R95: an answer of the called station that reaches a waiting attempt whole, character
by character, brings SETTLING with its judgement: a sum or an exclusive OR that does not agree is CHECK; then a control
bit 5, 6 or 7 set, or a kind that R12 does not have or does not allow after the call, is WRONG_KIND; then a length that
R12 does not allow the kind is LENGTH_RANGE, each as verdict and last failure detail; else the answer is valid with its
kind, its length, its ack bit and, for REFUSE, its code. In every case the payload stands in the answer buffer, the bytes
behind it are as they were, or 0x00 in an attempt after the first (log entry 10), and nothing else but the model's
reception has changed. -/
def Obligations.AnswerTelegramJudged : Prop :=
  ∀ (s : State) (c judged : Context) (control a b : Byte) (payload covered : List Byte)
    (table : List (Nat × AnswerKind × List CallKind × Nat × Nat)) (agree : Prop), s.resetHeld = false →
    s.de = false → s.mode ≠ .stopped → s.phase = .waiting → s.receiver = Receiver.ready → s.context = some c →
    1 ≤ c.station → c.station ≤ 31 → c.verdict = none → s.memory.wf = true → (∀ x ∈ c.answerBuffer, x < 64) →
    payload.length ≤ 32 →
    table =
      [(1, .accept, [.write], 0, 0), (2, .data, [.read, .exchange], 0, 32),
        (3, .busy, [.write, .read, .exchange], 0, 0), (4, .refuse, [.write, .read, .exchange], 1, 1),
        (5, .report, [.poll], 1, 32), (6, .nothing, [.poll], 0, 0)] →
    covered = control :: BitVec.ofNat 8 payload.length :: payload →
    (agree ↔ covered.foldl (· + ·) 0 + a = 0 ∧ b = covered.foldl (· ^^^ ·) 0) →
    ((¬ agree ∧ judged = { c with verdict := some (.badAnswer .check), lastDetail := some .check }) ∨
      (agree ∧
        (32 ≤ control.toNat ∨
          ∀ (k : AnswerKind) (calls : List CallKind) (low high : Nat),
            (control.toNat % 8, k, calls, low, high) ∈ table → c.kind ∉ calls) ∧
        judged = { c with verdict := some (.badAnswer .wrongKind), lastDetail := some .wrongKind }) ∨
      (agree ∧ control.toNat < 32 ∧
        ∃ (k : AnswerKind) (calls : List CallKind) (low high : Nat),
          (control.toNat % 8, k, calls, low, high) ∈ table ∧ c.kind ∈ calls ∧
          ((¬ (low ≤ payload.length ∧ payload.length ≤ high) ∧
              judged = { c with verdict := some (.badAnswer .lengthRange), lastDetail := some .lengthRange }) ∨
            (low ≤ payload.length ∧ payload.length ≤ high ∧
              judged = { c with
                verdict := some (.valid k payload.length (control.getLsbD 4)
                  (if k = .refuse then payload.head? else none)) })))) →
    ∃ t : State,
      execAll (telegramArrivals s.lineConfig.parity
        (BitVec.ofNat 8 (128 + c.station) :: (covered ++ [a, b]))) s = .next t ∧
      t = { s with
        phase := .settling
        timer := ⟨.settle, s.lineConfig.telegramGap * s.characterBits⟩
        context := some judged
        reception := t.reception
        memory := t.memory } ∧
      (∀ x ∈ c.answerBuffer, ∀ i < 32,
        t.bufferByte x i = payload.getD i (if c.lastDetail = none then s.bufferByte x i else 0)) ∧
      ∀ address : Nat, (∀ x ∈ c.answerBuffer, address < 32 * x ∨ 32 * x + 32 ≤ address) →
        t.memory.read address = s.memory.read address

/-- R93, R96, R97: the answer timer of WAITING makes the attempt NO_ANSWER, SILENT; the character-gap timer of RECEIVING
makes an answer that has not yet failed BAD_ANSWER, TRUNCATED, and lets a failed one settle. A timer of quiet runs while
the receiver is not inside a character, holds no space character back, and the line is not in break (R87, R106); that the
character-gap timer is held in break too is the model's choice (log entry 26). -/
def Obligations.AnswerTimersRule : Prop :=
  ∀ (s : State) (c : Context) (settle : LineTimer), s.resetHeld = false → s.context = some c →
    settle = ⟨.settle, s.lineConfig.telegramGap * s.characterBits⟩ →
    (s.lineQuiet = true ↔
      s.receiver.inCharacter = none ∧ s.receiver.heldSpace = false ∧ s.receiver.lineInBreak = false) ∧
    (s.phase = .receiving → s.receiver.lineInBreak = true → exec .characterGapExpiry s = .next s) ∧
    (s.phase = .waiting →
      exec .answerTimerExpiry s = .next { s with
        phase := .settling
        timer := settle
        context := some { c with verdict := some .noAnswer, lastDetail := some .silent } }) ∧
    (s.phase = .receiving → s.timer.kind = .characterGap → s.lineQuiet = true → c.verdict = none →
      exec .characterGapExpiry s = .next { s with
        phase := .settling
        timer := settle
        context := some { c with verdict := some (.badAnswer .truncated), lastDetail := some .truncated } }) ∧
    (s.phase = .receiving → s.timer.kind = .characterGap → s.lineQuiet = true → c.verdict.isSome = true →
      exec .characterGapExpiry s = .next { s with phase := .settling, timer := settle })

/-- R106, R107, R108, R87: a break raises BREAK and the breaks counter once and makes an answer not yet failed
BAD_ANSWER, BREAK; at the return to mark the phase stays IDLE in STOPPED and becomes HOLDOFF otherwise, and a verdict
that the break cut short takes effect first. -/
def Obligations.BreakRule : Prop :=
  ∀ (s broken marked : State), s.resetHeld = false →
    broken = { s with
      breaks := if s.breaks < 255 then s.breaks + 1 else s.breaks
      receiver := ⟨none, false, true, true⟩
      events := { s.events with lineBreak := true } } →
    marked = { s with receiver := Receiver.ready } →
    (s.receiver.lineInBreak = true → exec .breakDetected s = .next s) ∧
    (s.receiver.lineInBreak = false →
      (s.phase = .idle ∨ s.phase = .gap ∨ s.phase = .settling ∨ s.phase = .holdoff →
        exec .breakDetected s = .next broken) ∧
      ∀ c : Context, s.phase = .receiving → s.context = some c →
        (c.verdict.isSome = true → exec .breakDetected s = .next broken) ∧
        (c.verdict = none →
          exec .breakDetected s = .next { broken with
            context := some { c with verdict := some (.badAnswer .lineBreak), lastDetail := some .lineBreak } })) ∧
    (s.receiver.lineInBreak = true →
      (s.mode = .stopped → exec .breakEnd s = .next marked) ∧
      (s.mode ≠ .stopped → (s.phase = .idle ∨ s.phase = .gap ∨ s.phase = .holdoff) →
        exec .breakEnd s = .next { marked with
          phase := .holdoff
          timer := ⟨.holdoff, s.lineConfig.holdoff * s.characterBits⟩ }) ∧
      (s.mode ≠ .stopped → (s.phase = .receiving ∨ s.phase = .settling) →
        exec .breakEnd s = .next (marked.takeVerdict.enterHoldoff.endDrain)))

/-! ## The end of an attempt -/

/-- R98, R99, R101, R102, R105, R57: the settle timer's expiry lets the verdict take effect: a transaction still in
flight goes back to GAP, an ended one returns to IDLE, which ends a drain or is an occasion to look. The holdoff timer's
expiry goes to GAP with a transaction in flight and to IDLE, an occasion to look, without. The end of a drain (R142, R145,
R161): in DRAINING with no transaction in flight the mode becomes STOPPED, a HOLDOFF is abandoned for IDLE, stall-active
is cleared and LINE_STOPPED is raised; any other state is left as it is. -/
def Obligations.SettleAndHoldoffExpiry : Prop :=
  ∀ (s judged : State), s.resetHeld = false → s.lineQuiet = true → judged = s.takeVerdict →
    (s.phase = .settling → judged.context.isSome = true →
      exec .settleTimerExpiry s = .next { judged with
        phase := .gap
        timer := ⟨.telegramGap, judged.lineConfig.telegramGap * judged.characterBits⟩ }) ∧
    (s.phase = .settling → judged.context = none →
      exec .settleTimerExpiry s =
        .next ({ judged with phase := .idle, timer := LineTimer.off } : State).endDrain.look) ∧
    (s.phase = .holdoff → s.context.isSome = true →
      exec .holdoffExpiry s = .next { s with
        phase := .gap
        timer := ⟨.telegramGap, s.lineConfig.telegramGap * s.characterBits⟩ }) ∧
    (s.phase = .holdoff → s.context = none →
      exec .holdoffExpiry s = .next ({ s with phase := .idle, timer := LineTimer.off } : State).look) ∧
    ∀ t : State,
      (t.mode = .draining → t.context = none →
        t.endDrain = { t with
          mode := .stopped
          phase := .idle
          timer := LineTimer.off
          stallActive := false
          events := { t.events with lineStopped := true } }) ∧
      (t.mode ≠ .draining ∨ t.context.isSome = true → t.endDrain = t)

/-- R54, R65, R66, R99, R100, R103: the decision on a request to a station, once the Station Table has taken the verdict:
ACCEPT, DATA and REFUSE end it; BUSY ends it CANCELLED or STATION_BUSY, or returns it to the head of its class with its
hold; a failure ends it when the station is lost, a cancel is pending or no attempts remain, and is retried otherwise. -/
def Obligations.RequestDecision : Prop :=
  ∀ (s told : State) (c : Context) (v : Verdict) (lost sent : Bool), s.context = some c → c.origin = .request →
    c.station ≠ 0 → c.verdict = some v → told = s.setStation c.station (s.entryAfter c v) →
    (lost = true ↔ (s.station c.station).state ≠ .offline ∧ (s.station c.station).state ≠ .disabled ∧
      (s.entryAfter c v).state = .offline) →
    sent = c.callBits.isSome →
    (∀ (n : Nat) (ack : Bool) (code : Option Byte),
      (v = .valid .accept n ack code →
        s.takeVerdict = told.close c (some { c.record .done with
          answerKind := some .accept
          cancelRequested := c.cancelPending }) false) ∧
      (v = .valid .data n ack code →
        s.takeVerdict = told.close c (some { c.record .done with
          answerKind := some .data
          buffer := c.answerBuffer
          length := n
          cancelRequested := c.cancelPending }) false) ∧
      (v = .valid .refuse n ack code →
        s.takeVerdict = told.close c (some { c.record .refused with
          answerKind := some .refuse
          refusal := code
          cancelRequested := c.cancelPending }) false) ∧
      (v = .valid .busy n ack code →
        (c.cancelPending = true →
          s.takeVerdict = told.close c (some { c.record .cancelled with answerKind := some .busy }) false) ∧
        (c.cancelPending = false → (c.retryLimit + 1 ≤ c.attempts ∨ 16 ≤ s.queue.length) →
          s.takeVerdict = told.close c (some { c.record .stationBusy with answerKind := some .busy }) false) ∧
        (c.cancelPending = false → c.attempts < c.retryLimit + 1 → s.queue.length < 16 → s.QueueOk →
          (∀ b ∈ c.outBuffer, s.owner b = some .line) → (∀ b ∈ c.answerBuffer, s.owner b = some .line) →
          (∀ b ∈ c.outBuffer, ∀ b' ∈ c.answerBuffer, b ≠ b') →
          ∀ r : Request,
            r =
              { ticket := c.ticket, station := c.station, kind := c.kind, urgent := c.urgent,
                retryLimit := c.retryLimit, outBuffer := c.outBuffer, outLength := c.outLength,
                attemptsMade := c.attempts,
                holdUntil := some (s.timeCounter + BitVec.ofNat 16 s.limits.busyDelay) } →
            s.takeVerdict = { told with
              queue := if r.urgent then r :: s.queue
                else s.queue.filter (fun q : Request => q.urgent) ++
                  r :: s.queue.filter (fun q : Request => !q.urgent)
              owners := c.answerBuffer.elim (c.outBuffer.elim s.owners (s.owners.set · .queued))
                ((c.outBuffer.elim s.owners (s.owners.set · .queued)).set · .free)
              freeList := s.freeList ++ c.answerBuffer.toList
              reserved := false
              context := none }))) ∧
    ∀ outcome : ResultOutcome,
      ((v = .noAnswer ∧ outcome = .noAnswer) ∨ ((∃ d : Detail, v = .badAnswer d) ∧ outcome = .badAnswer)) →
      (lost = true →
        s.takeVerdict = told.close c (some { c.record (if c.cancelPending then .cancelled else outcome) with
          stationLost := true }) sent) ∧
      (lost = false → c.cancelPending = true →
        s.takeVerdict = told.close c (some (c.record .cancelled)) sent) ∧
      (lost = false → c.cancelPending = false → c.attempts < c.retryLimit + 1 →
        s.takeVerdict = { told with context := some { c with verdict := none } }) ∧
      (lost = false → c.cancelPending = false → c.retryLimit + 1 ≤ c.attempts →
        s.takeVerdict = told.close c (some (c.record outcome)) sent)

/-- R11, R77, R78, R79, R99: a broadcast ends DONE; a valid REPORT is judged against the entry as the Station Table has
left it: set aside when the synced flag is clear, new when its ack bit differs from the last-report toggle, a duplicate
otherwise; any other verdict ends a poll or probe with nothing posted. -/
def Obligations.ReportJudgement : Prop :=
  ∀ (s told : State) (c : Context) (v : Verdict) (e : Station), s.context = some c →
    e = s.entryAfter c v → told = s.setStation c.station e →
    (c.station = 0 →
      s.takeVerdict = s.close c (some { c.record .done with cancelRequested := c.cancelPending }) false) ∧
    (1 ≤ c.station → c.station ≤ 31 → s.stations.length = 31 → c.origin ≠ .request → c.verdict = some v →
      (∀ (n : Nat) (ack : Bool) (code : Option Byte), v = .valid .report n ack code →
        (e.synced = true → ack ≠ e.lastReport →
          s.takeVerdict = (told.setStation c.station { e with lastReport := ack }).close c
            (some
              { ticket := 0, origin := .report, station := c.station, kind := .poll, outcome := .done,
                answerKind := some .report, attempts := 1, collisions := c.collisions, detail := none,
                buffer := c.answerBuffer, length := n, refusal := none, cancelRequested := false,
                stationLost := false, stamp := 0 }) false) ∧
        (e.synced = false ∨ ack = e.lastReport →
          s.takeVerdict = (told.setStation c.station { e with
            duplicateReports := if e.duplicateReports < 65535 then e.duplicateReports + 1
              else e.duplicateReports }).close c none false)) ∧
      ((∀ (n : Nat) (ack : Bool) (code : Option Byte), v ≠ .valid .report n ack code) →
        s.takeVerdict = told.close c none false))

/-- R102, R130, R131, R132, R140, R114: a closing posts its record at the tail of the Result Queue with the time
counter's value, or releases the slot with nothing posted, RESULTS_HIGH raised when the count reaches the watermark;
frees the out buffer, then the answer buffer, unless the record carries it and it becomes RESULT; clears the synced flag
where asked; and removes the context. -/
def Obligations.ClosingOfTransaction : Prop :=
  ∀ (s : State) (c : Context) (record : Option ResultRecord) (clear attached : Bool),
    (∀ b ∈ c.outBuffer, s.owner b = some .line) → (∀ b ∈ c.answerBuffer, s.owner b = some .line) →
    (∀ b ∈ c.outBuffer, ∀ b' ∈ c.answerBuffer, b ≠ b') →
    (attached = true ↔ ∃ r ∈ record, r.buffer.isSome = true) →
    s.close c record clear = { s with
      results := s.results ++ (record.map fun r => { r with stamp := s.timeCounter }).toList
      events := { s.events with
        resultsHigh := s.events.resultsHigh ||
          (record.isSome && decide (s.results.length + 1 = s.limits.watermark)) }
      reserved := false
      context := none
      owners := c.answerBuffer.elim (c.outBuffer.elim s.owners (s.owners.set · .free))
        ((c.outBuffer.elim s.owners (s.owners.set · .free)).set · (if attached then .result else .free))
      freeList := s.freeList ++ c.outBuffer.toList ++ (if attached then [] else c.answerBuffer.toList)
      stations := if clear then
          (s.setStation c.station { s.station c.station with synced := false }).stations
        else s.stations }

/-! ## The Dispatcher -/

/-- R59: a record is eligible when it is not holding, has the buffer it needs or needs none, and no record ahead of it for
the same station is ineligible; a record whose station is OFFLINE or DISABLED needs no buffer. The eligible request of a
look is the first eligible record in queue order. -/
def Obligations.EligibleRequestRule : Prop :=
  ∀ (s : State) (ready : Request → Prop) (eligible : Nat → Prop),
    (∀ r : Request, ready r ↔
      r.holdUntil = none ∧
      (r.kind = .write ∨ s.freeList ≠ [] ∨
        (r.station ≠ 0 ∧ ((s.station r.station).state = .offline ∨ (s.station r.station).state = .disabled)))) →
    (∀ i : Nat, eligible i ↔
      ∃ r : Request, s.queue[i]? = some r ∧ ready r ∧
        ∀ (j : Nat) (q : Request), j < i → s.queue[j]? = some q → q.station = r.station → eligible j) →
    (∀ r : Request, s.eligibleRequest = some r ↔
      ∃ i : Nat, s.queue[i]? = some r ∧ eligible i ∧ ∀ j < i, ¬ eligible j) ∧
    (s.eligibleRequest = none ↔ ∀ i : Nat, ¬ eligible i)

/-- R60, R70: the due station of a look is the first candidate from the address after the round-robin pointer up to 31
and then from 1 to the pointer: UNKNOWN, ONLINE or SUSPECT with a poll period above 0 and its poll countdown run out, or
OFFLINE with its probe countdown run out. -/
def Obligations.DueStationRule : Prop :=
  ∀ (s : State) (candidate : Nat → Prop) (place : Nat → Nat), 1 ≤ s.pollPointer → s.pollPointer ≤ 31 →
    (∀ a : Nat, candidate a ↔
      1 ≤ a ∧ a ≤ 31 ∧
      ((((s.station a).state = .unknown ∨ (s.station a).state = .online ∨ (s.station a).state = .suspect) ∧
          0 < (s.station a).pollPeriod ∧ (s.station a).pollCountdown = 0) ∨
        ((s.station a).state = .offline ∧ (s.station a).probeCountdown = 0))) →
    (∀ a : Nat, place a = (a + 30 - s.pollPointer) % 31) →
    (∀ a : Nat, s.dueStation = some a ↔ candidate a ∧ ∀ b : Nat, candidate b → place a ≤ place b) ∧
    (s.dueStation = none ↔ ∀ a : Nat, ¬ candidate a)

/-- R57, R58, R61, R64: a look is made only in RUNNING and IDLE with nothing in flight. It stalls with no slot free;
otherwise a poll or probe goes when the poll share is reached or no request is eligible, else the eligible request goes,
or is completed at dispatch, after which the look continues. Whether the look is made at once is log entry 7. -/
def Obligations.LookOutcomes : Prop :=
  ∀ (s free : State), free = { s with stallActive := false } →
    (¬ (s.mode = .running ∧ s.phase = .idle ∧ s.context = none) → s.look = s) ∧
    (s.mode = .running → s.phase = .idle → s.context = none →
      (24 ≤ s.results.length → ((∃ r ∈ s.queue, r.holdUntil = none) ∨ s.dueStation.isSome = true) →
        s.look = { s with
          stallActive := true
          stallReported := true
          events := { s.events with stall := s.events.stall || !s.stallReported } }) ∧
      (24 ≤ s.results.length → (∀ r ∈ s.queue, r.holdUntil ≠ none) → s.dueStation = none → s.look = free) ∧
      (s.results.length < 24 →
        (∀ a : Nat, s.dueStation = some a → s.freeList ≠ [] →
          (s.limits.pollShare ≤ s.consecutive ∨ s.eligibleRequest = none) → s.look = free.dispatchPoll a) ∧
        (∀ r : Request, s.eligibleRequest = some r →
          (s.consecutive < s.limits.pollShare ∨ s.dueStation = none ∨ s.freeList = []) →
          (r.station = 0 ∨ ((s.station r.station).state ≠ .offline ∧ (s.station r.station).state ≠ .disabled) →
            s.look = free.dispatchRequest r) ∧
          (r.station ≠ 0 → ((s.station r.station).state = .offline ∨ (s.station r.station).state = .disabled) →
            s.look = (free.completeAtDispatch r).look)) ∧
        (s.eligibleRequest = none → (s.dueStation = none ∨ s.freeList = []) → s.look = free)))

/-- R62, R63, R64, R43, R115, R117, R133, R140: what a dispatch of a request, a dispatch of a poll or probe, and a
completion at dispatch do, each as one step. -/
def Obligations.DispatchSteps : Prop :=
  ∀ (s : State) (events : Events) (left : List Request),
    (∀ r : Request, r ∈ s.queue → s.queue.length ≤ 16 → left = s.queue.eraseP (·.ticket == r.ticket) →
      events = { s.events with requestSpace := s.events.requestSpace || s.queue.length == 16 } →
      (∀ b ∈ r.outBuffer, s.owner b = some .queued) →
      (r.kind = .write →
        s.dispatchRequest r = { s with
          queue := left
          events := events
          reserved := true
          owners := r.outBuffer.elim s.owners (s.owners.set · .line)
          context := some
            { origin := .request, ticket := r.ticket, station := r.station, kind := r.kind, urgent := r.urgent,
              retryLimit := r.retryLimit, attempts := r.attemptsMade, collisions := 0, outBuffer := r.outBuffer,
              outLength := r.outLength, answerBuffer := none, cancelPending := false, lastDetail := none,
              callBits := none, verdict := none }
          consecutive := if s.consecutive < 15 then s.consecutive + 1 else s.consecutive
          stallReported := false
          phase := .gap
          timer := ⟨.telegramGap, s.lineConfig.telegramGap * s.characterBits⟩ }) ∧
      (∀ (b : Nat) (rest : List Nat), r.kind ≠ .write → s.freeList = b :: rest → s.owner b = some .free →
        s.dispatchRequest r = { s with
          queue := left
          events := { events with poolEmpty := s.events.poolEmpty || rest.isEmpty }
          reserved := true
          freeList := rest
          owners := r.outBuffer.elim (s.owners.set b .line) ((s.owners.set b .line).set · .line)
          memory := s.memory.clear (32 * b) 32
          context := some
            { origin := .request, ticket := r.ticket, station := r.station, kind := r.kind, urgent := r.urgent,
              retryLimit := r.retryLimit, attempts := r.attemptsMade, collisions := 0, outBuffer := r.outBuffer,
              outLength := r.outLength, answerBuffer := some b, cancelPending := false, lastDetail := none,
              callBits := none, verdict := none }
          consecutive := if s.consecutive < 15 then s.consecutive + 1 else s.consecutive
          stallReported := false
          phase := .gap
          timer := ⟨.telegramGap, s.lineConfig.telegramGap * s.characterBits⟩ }) ∧
      s.completeAtDispatch r = { s with
        queue := left
        events := { events with
          resultsHigh := s.events.resultsHigh || decide (s.results.length + 1 = s.limits.watermark) }
        owners := r.outBuffer.elim s.owners (s.owners.set · .free)
        freeList := s.freeList ++ r.outBuffer.toList
        results := s.results ++
          [{ ticket := r.ticket, origin := .request, station := r.station, kind := r.kind,
             outcome := if (s.station r.station).state = .disabled then .stationDisabled else .stationOffline,
             answerKind := none, attempts := 0, collisions := 0, detail := none, buffer := none, length := 0,
             refusal := none, cancelRequested := false, stationLost := false, stamp := s.timeCounter }]
        stallReported := false }) ∧
    ∀ (a b : Nat) (rest : List Nat) (e : Station), e = s.station a → s.freeList = b :: rest →
      s.dispatchPoll a = { s with
        events := { s.events with poolEmpty := s.events.poolEmpty || rest.isEmpty }
        reserved := true
        freeList := rest
        owners := s.owners.set b .line
        memory := s.memory.clear (32 * b) 32
        stations := (s.setStation a
          (if e.state = .offline then { e with probeCountdown := s.limits.probeInterval }
            else { e with pollCountdown := e.pollPeriod })).stations
        context := some
          { origin := if e.state = .offline then .probe else .poll, ticket := 0, station := a, kind := .poll,
            urgent := false, retryLimit := 0, attempts := 0, collisions := 0, outBuffer := none, outLength := 0,
            answerBuffer := some b, cancelPending := false, lastDetail := none, callBits := none, verdict := none }
        pollPointer := a
        consecutive := 0
        stallReported := false
        phase := .gap
        timer := ⟨.telegramGap, s.lineConfig.telegramGap * s.characterBits⟩ }

/-! ## The Timebase -/

/-- R151, R71, R72, R74, R67, R57: the time counter rises and wraps; the return of the 10 ms prescaler to 0 gives a 10 ms
tick, and the return of the 100 ms prescaler at a 10 ms tick gives a 100 ms tick; a 10 ms tick lowers the poll
countdowns of the polled stations and a 100 ms tick the probe countdowns of the OFFLINE ones, except in STOPPED; without
a given tick none falls, and a given tick that its row has not taken falls before the next rise; a station that falls
due, and a hold that the time counter has reached, are occasions to look. The ticks are rows of their own, and where
they stand between the rise and their rows is the model's choice (log entry 15). -/
def Obligations.TimebaseRows : Prop :=
  ∀ s : State, s.resetHeld = false →
    (s.tick10Given = false → s.tick100Given = false →
      exec .timeCounterTick s =
        .next { s with
          timeCounter := s.timeCounter + 1
          prescaler10 := if s.prescaler10 + 1 < 10 then s.prescaler10 + 1 else 0
          tick10Given := decide (10 ≤ s.prescaler10 + 1) }) ∧
    (∀ t : State, s.tick10Given = true → exec .tenMsTick s = .next t →
      exec .timeCounterTick s = exec .timeCounterTick t) ∧
    (∀ t : State, s.tick10Given = false → s.tick100Given = true → exec .hundredMsTick s = .next t →
      exec .timeCounterTick s = exec .timeCounterTick t) ∧
    (s.tick10Given = false → exec .tenMsTick s = .next s) ∧
    (s.tick10Given = true →
      exec .tenMsTick s =
        .next { s with
          tick10Given := false
          prescaler100 := if s.prescaler100 + 1 < 10 then s.prescaler100 + 1 else 0
          tick100Given := s.tick100Given || decide (10 ≤ s.prescaler100 + 1)
          stations := if s.mode = .stopped then s.stations
            else s.stations.map fun e =>
              if (e.state = .unknown ∨ e.state = .online ∨ e.state = .suspect) ∧ 0 < e.pollPeriod ∧
                  0 < e.pollCountdown
              then { e with pollCountdown := e.pollCountdown - 1 } else e }) ∧
    (s.tick100Given = false → exec .hundredMsTick s = .next s) ∧
    (s.tick100Given = true →
      exec .hundredMsTick s =
        .next { s with
          tick100Given := false
          stations := if s.mode = .stopped then s.stations
            else s.stations.map fun e =>
              if e.state = .offline ∧ 0 < e.probeCountdown then { e with probeCountdown := e.probeCountdown - 1 }
              else e }) ∧
    (∀ a : Nat,
      ((s.station a).state = .unknown ∨ (s.station a).state = .online ∨ (s.station a).state = .suspect) →
      0 < (s.station a).pollPeriod → (s.station a).pollCountdown = 0 →
      exec (.pollCountdownExpiry a) s = .next s.look) ∧
    (∀ a : Nat, (s.station a).state = .offline → (s.station a).probeCountdown = 0 →
      exec (.probeCountdownExpiry a) s = .next s.look) ∧
    ((∃ r ∈ s.queue, r.holdUntil = some s.timeCounter) →
      exec .holdEnd s =
        .next ({ s with
          queue := s.queue.map fun r =>
            if r.holdUntil = some s.timeCounter then { r with holdUntil := none } else r } : State).look)

/-! ## Invariants that every step keeps -/

/-- R113: the ownerships, the free list and the holders of the buffers agree: each FREE buffer stands once in the free
list, each QUEUED buffer is the out buffer of one queued record, each LINE buffer belongs to the context, each RESULT
buffer to one result record, and each index that a holder names is one of these. The tickets of R44 and the emptiness of R155 go with it, since they keep the holders
apart. -/
def Obligations.StepKeepsBuffers : Prop :=
  ∀ s t : State, s.BuffersOk → step s = .next t → t.BuffersOk

/-- R130, R43: the result records and the reserved slot never exceed 24, the reservation mark is set exactly while a
transaction is in flight, and the Request Queue holds at most 16 records, the urgent ones first. -/
def Obligations.StepKeepsSlotsAndQueue : Prop :=
  ∀ s t : State, s.SlotsOk → s.QueueOk → step s = .next t → t.SlotsOk ∧ t.QueueOk

/-- R85, R86, R89, R142, R145: DE is asserted only in CALLING, a context is present as the phase requires, STOPPED is IDLE
with nothing in flight, DRAINING has a transaction in flight, and no pending cancel waits in GAP or HOLDOFF. -/
def Obligations.StepKeepsLine : Prop :=
  ∀ s t : State, s.LineOk → step s = .next t → t.LineOk

/-- R19, R20: the table holds 31 entries, each with a fail count that fits its state. R61, R70, R108, R109, R148, R151:
every counter and setting lies within its range, and a given tick stands only at its prescaler's return to 0, a 100 ms
tick only at the moment of a 10 ms tick (log entry 15). R42, R44, R84, R91, R127: while the line's own invariant holds,
the fields of the queued records, of the context and of the result records lie within their ranges: tickets up to 255,
stations up to 31, attempts up to 8, collisions up to 4, lengths up to 32, buffers up to 63. -/
def Obligations.StepKeepsRanges : Prop :=
  (∀ s t : State, s.StationsOk → s.RangesOk → step s = .next t → t.StationsOk ∧ t.RangesOk) ∧
  ∀ s t : State, s.LineOk → s.RecordsOk → step s = .next t → t.RecordsOk

/-- Message memory keeps its canonical form, so that equal contents are equal data. The list and its form are the model's
choice (log entry 23). -/
def Obligations.StepKeepsMemoryForm : Prop :=
  ∀ s t : State, s.memory.wf = true → step s = .next t → t.memory.wf = true

/-- The state right after reset meets every one of these invariants. -/
def Obligations.ResetMeetsInvariants : Prop :=
  State.reset.BuffersOk ∧ State.reset.SlotsOk ∧ State.reset.QueueOk ∧ State.reset.LineOk ∧ State.reset.StationsOk ∧
    State.reset.RangesOk ∧ State.reset.RecordsOk ∧ State.reset.memory.wf = true

end Statements
end

