-- ==== Sys2Proof/Laws/Memory.lean ====
section
/-! SUPPORT. The laws of message memory: what a read gives after a write or a clearing, and that every operation keeps
the canonical form. -/

namespace Sys2Proof.Machine

/-! ## The canonical form -/

/-- A canonical list from `low` on is canonical from any lower bound on. -/
theorem Memory.wfFrom_mono {m : Memory} {low low' : Nat} (h : low' ≤ low) (hm : m.wfFrom low = true) :
    m.wfFrom low' = true := by
  cases m with
  | nil => rfl
  | cons cell rest =>
    obtain ⟨a, b⟩ := cell
    simp only [Memory.wfFrom, Bool.and_eq_true, decide_eq_true_eq] at hm ⊢
    exact ⟨⟨⟨by omega, hm.1.1.2⟩, hm.1.2⟩, hm.2⟩

/-- A canonical list lists no address below its bound. -/
theorem Memory.read_of_wfFrom_lt {m : Memory} {low address : Nat} (hm : m.wfFrom low = true)
    (h : address < low) : m.read address = 0 := by
  induction m generalizing low with
  | nil => rfl
  | cons cell rest ih =>
    obtain ⟨a, b⟩ := cell
    simp only [Memory.wfFrom, Bool.and_eq_true, decide_eq_true_eq] at hm
    rw [Memory.read, if_neg (by omega)]
    exact ih hm.2 (by omega)

/-- A write keeps the canonical form above any bound that the written address respects. -/
theorem Memory.wfFrom_write {m : Memory} {low address : Nat} (value : Byte) (hm : m.wfFrom low = true)
    (hlow : low ≤ address) (hend : address < 2048) : (m.write address value).wfFrom low = true := by
  induction m generalizing low with
  | nil =>
    rw [Memory.write]
    split
    · rfl
    · rename_i hv
      simp only [Memory.wfFrom, Bool.and_eq_true, decide_eq_true_eq]
      exact ⟨⟨⟨hlow, hend⟩, hv⟩, trivial⟩
  | cons cell rest ih =>
    obtain ⟨a, b⟩ := cell
    have hm' := hm
    simp only [Memory.wfFrom, Bool.and_eq_true, decide_eq_true_eq] at hm
    obtain ⟨⟨⟨h1, h2⟩, h3⟩, h4⟩ := hm
    rw [Memory.write]
    split
    · split
      · exact hm'
      · rename_i hlt hv
        simp only [Memory.wfFrom, Bool.and_eq_true, decide_eq_true_eq]
        exact ⟨⟨⟨hlow, hend⟩, hv⟩, ⟨⟨by omega, h2⟩, h3⟩, h4⟩
    · split
      · split
        · exact Memory.wfFrom_mono (by omega) h4
        · rename_i hlt heq hv
          simp only [Memory.wfFrom, Bool.and_eq_true, decide_eq_true_eq]
          exact ⟨⟨⟨h1, h2⟩, hv⟩, h4⟩
      · rename_i hlt heq
        simp only [Memory.wfFrom, Bool.and_eq_true, decide_eq_true_eq]
        exact ⟨⟨⟨h1, h2⟩, h3⟩, ih h4 (by omega)⟩

/-- A clearing keeps the canonical form. -/
theorem Memory.wfFrom_clear {m : Memory} {low : Nat} (start count : Nat) (hm : m.wfFrom low = true) :
    (m.clear start count).wfFrom low = true := by
  induction m generalizing low with
  | nil => rfl
  | cons cell rest ih =>
    obtain ⟨a, b⟩ := cell
    simp only [Memory.wfFrom, Bool.and_eq_true, decide_eq_true_eq] at hm
    obtain ⟨⟨⟨h1, h2⟩, h3⟩, h4⟩ := hm
    have hrest := ih h4
    simp only [Memory.clear, List.filter_cons] at hrest ⊢
    split
    · simp only [Memory.wfFrom, Bool.and_eq_true, decide_eq_true_eq]
      exact ⟨⟨⟨h1, h2⟩, h3⟩, hrest⟩
    · exact Memory.wfFrom_mono (by omega) hrest

/-- A write within message memory keeps the canonical form. -/
theorem Memory.wf_write {m : Memory} {address : Nat} (value : Byte) (hm : m.wf = true) (h : address < 2048) :
    (m.write address value).wf = true :=
  Memory.wfFrom_write value hm (Nat.zero_le _) h

/-- A clearing keeps the canonical form. -/
theorem Memory.wf_clear {m : Memory} (start count : Nat) (hm : m.wf = true) : (m.clear start count).wf = true :=
  Memory.wfFrom_clear start count hm

/-- Empty message memory is canonical. -/
@[simp] theorem Memory.wf_nil : Memory.wf [] = true := rfl

/-! ## Reads -/

/-- Every byte of empty message memory reads 0x00 (R124). -/
@[simp] theorem Memory.read_nil (address : Nat) : Memory.read [] address = 0 := rfl

/-- A read after a write to the same address gives the value written. -/
theorem Memory.read_write_same {m : Memory} {low address : Nat} (value : Byte) (hm : m.wfFrom low = true) :
    (m.write address value).read address = value := by
  induction m generalizing low with
  | nil =>
    rw [Memory.write]
    split
    · rename_i hv
      exact hv.symm
    · rw [Memory.read, if_pos rfl]
  | cons cell rest ih =>
    obtain ⟨a, b⟩ := cell
    simp only [Memory.wfFrom, Bool.and_eq_true, decide_eq_true_eq] at hm
    rw [Memory.write]
    split
    · split
      · rename_i hlt hv
        rw [Memory.read, if_neg (by omega), hv]
        exact Memory.read_of_wfFrom_lt hm.2 (by omega)
      · simp [Memory.read]
    · split
      · split
        · rename_i hlt heq hv
          rw [hv]
          exact Memory.read_of_wfFrom_lt hm.2 (by omega)
        · rename_i hlt heq hv
          simp [Memory.read, heq]
      · rename_i hlt heq
        rw [Memory.read, if_neg (fun h => heq h.symm)]
        exact ih hm.2

/-- A write leaves every other address as it was. -/
theorem Memory.read_write_other {address other : Nat} (m : Memory) (value : Byte) (h : other ≠ address) :
    (m.write address value).read other = m.read other := by
  induction m with
  | nil =>
    rw [Memory.write]
    split
    · rfl
    · simp only [Memory.read, if_neg (Ne.symm h)]
  | cons cell rest ih =>
    obtain ⟨a, b⟩ := cell
    rw [Memory.write]
    split
    · split
      · rfl
      · simp [Memory.read, h.symm]
    · split
      · rename_i hlt heq
        split
        · rw [Memory.read, if_neg (by omega)]
        · rw [Memory.read, Memory.read, if_neg (by omega), if_neg (by omega)]
      · rw [Memory.read, Memory.read, ih]

/-- A clearing leaves every address outside its run as it was. -/
theorem Memory.read_clear_outside {m : Memory} {start count address : Nat}
    (h : address < start ∨ start + count ≤ address) : (m.clear start count).read address = m.read address := by
  induction m with
  | nil => rfl
  | cons cell rest ih =>
    obtain ⟨a, b⟩ := cell
    simp only [Memory.clear, List.filter_cons] at ih ⊢
    split
    · rw [Memory.read, Memory.read, ih]
    · rename_i hk
      simp only [Bool.or_eq_true, decide_eq_true_eq, not_or] at hk
      rw [ih, Memory.read, if_neg (by omega)]

/-- A clearing sets every byte of its run to 0x00. -/
theorem Memory.read_clear_inside {m : Memory} {start count address : Nat}
    (hlow : start ≤ address) (hend : address < start + count) : (m.clear start count).read address = 0 := by
  induction m with
  | nil => rfl
  | cons cell rest ih =>
    obtain ⟨a, b⟩ := cell
    simp only [Memory.clear, List.filter_cons] at ih ⊢
    split
    · rename_i hk
      simp only [Bool.or_eq_true, decide_eq_true_eq] at hk
      rw [Memory.read, if_neg (by omega), ih]
    · exact ih

/-! ## Buffers -/

/-- The bytes of the buffers have addresses of their own. -/
theorem bufferAddress_inj {b i b' i' : Nat} (hi : i < 32) (hi' : i' < 32)
    (h : bufferAddress b i = bufferAddress b' i') : b = b' ∧ i = i' := by
  unfold bufferAddress at h
  omega

/-- A byte of a buffer lies within message memory. -/
theorem bufferAddress_lt {b i : Nat} (hb : b < 64) (hi : i < 32) : bufferAddress b i < 2048 := by
  unfold bufferAddress
  omega

/-- A write of a buffer's byte keeps the canonical form. -/
theorem State.wf_writeBuffer {s : State} (buffer i : Nat) (value : Byte) (h : s.memory.wf = true) :
    (s.writeBuffer buffer i value).memory.wf = true := by
  unfold State.writeBuffer
  split
  · rename_i hb
    exact Memory.wf_write value h (bufferAddress_lt hb.1 hb.2)
  · exact h

/-- The clearing of a buffer keeps the canonical form. -/
theorem State.wf_clearBuffer {s : State} (buffer : Nat) (h : s.memory.wf = true) :
    (s.clearBuffer buffer).memory.wf = true :=
  Memory.wf_clear _ _ h

/-- A written byte reads as written. -/
theorem State.bufferByte_writeBuffer_same {s : State} {buffer i : Nat} (value : Byte) (h : s.memory.wf = true)
    (hb : buffer < 64) (hi : i < 32) : (s.writeBuffer buffer i value).bufferByte buffer i = value := by
  unfold State.writeBuffer State.bufferByte
  rw [if_pos ⟨hb, hi⟩]
  exact Memory.read_write_same value h

/-- A write of one byte leaves every other byte of the buffers as it was. -/
theorem State.bufferByte_writeBuffer_other {s : State} {buffer i other j : Nat} (value : Byte) (hi : i < 32)
    (hj : j < 32) (h : other ≠ buffer ∨ j ≠ i) :
    (s.writeBuffer buffer i value).bufferByte other j = s.bufferByte other j := by
  unfold State.writeBuffer State.bufferByte
  split
  · exact Memory.read_write_other s.memory value fun he => by
      obtain ⟨h1, h2⟩ := bufferAddress_inj hj hi he
      omega
  · rfl

/-- A cleared buffer reads 0x00. -/
theorem State.bufferByte_clearBuffer_same {s : State} {buffer i : Nat} (hi : i < 32) :
    (s.clearBuffer buffer).bufferByte buffer i = 0 :=
  Memory.read_clear_inside (by unfold bufferAddress; omega) (by unfold bufferAddress; omega)

/-- The clearing of a buffer leaves every other buffer as it was. -/
theorem State.bufferByte_clearBuffer_other {s : State} {buffer other i : Nat} (hi : i < 32)
    (h : other ≠ buffer) : (s.clearBuffer buffer).bufferByte other i = s.bufferByte other i :=
  Memory.read_clear_outside (by unfold bufferAddress; omega)

end Sys2Proof.Machine
end

