-- ==== Sys2Proof/Laws/State.lean ====
section
/-! SUPPORT. Of each update of the state, what it leaves in each field: one lemma per field, for simp. -/

namespace Sys2Proof.Machine

/-! ### State.raise -/

@[simp] theorem State.raise_resetHeld (s : State) (flag : LatchedFlag) : (s.raise flag).resetHeld = s.resetHeld := rfl
@[simp] theorem State.raise_de (s : State) (flag : LatchedFlag) : (s.raise flag).de = s.de := rfl
@[simp] theorem State.raise_port (s : State) (flag : LatchedFlag) : (s.raise flag).port = s.port := rfl
@[simp] theorem State.raise_readData (s : State) (flag : LatchedFlag) : (s.raise flag).readData = s.readData := rfl
@[simp] theorem State.raise_args (s : State) (flag : LatchedFlag) : (s.raise flag).args = s.args := rfl
@[simp] theorem State.raise_latch (s : State) (flag : LatchedFlag) : (s.raise flag).latch = s.latch := rfl
@[simp] theorem State.raise_commandCode (s : State) (flag : LatchedFlag) :
    (s.raise flag).commandCode = s.commandCode := rfl
@[simp] theorem State.raise_unit (s : State) (flag : LatchedFlag) : (s.raise flag).unit = s.unit := rfl
@[simp] theorem State.raise_cmdResult (s : State) (flag : LatchedFlag) : (s.raise flag).cmdResult = s.cmdResult := rfl
@[simp] theorem State.raise_replies (s : State) (flag : LatchedFlag) : (s.raise flag).replies = s.replies := rfl
@[simp] theorem State.raise_bufSelect (s : State) (flag : LatchedFlag) : (s.raise flag).bufSelect = s.bufSelect := rfl
@[simp] theorem State.raise_bufOffset (s : State) (flag : LatchedFlag) : (s.raise flag).bufOffset = s.bufOffset := rfl
@[simp] theorem State.raise_faultReg (s : State) (flag : LatchedFlag) : (s.raise flag).faultReg = s.faultReg := rfl
@[simp] theorem State.raise_timeSnapshot (s : State) (flag : LatchedFlag) :
    (s.raise flag).timeSnapshot = s.timeSnapshot := rfl
@[simp] theorem State.raise_taken (s : State) (flag : LatchedFlag) : (s.raise flag).taken = s.taken := rfl
@[simp] theorem State.raise_events (s : State) (flag : LatchedFlag) :
    (s.raise flag).events = s.events.raise flag := rfl
@[simp] theorem State.raise_enableA (s : State) (flag : LatchedFlag) : (s.raise flag).enableA = s.enableA := rfl
@[simp] theorem State.raise_enableB (s : State) (flag : LatchedFlag) : (s.raise flag).enableB = s.enableB := rfl
@[simp] theorem State.raise_stations (s : State) (flag : LatchedFlag) : (s.raise flag).stations = s.stations := rfl
@[simp] theorem State.raise_queue (s : State) (flag : LatchedFlag) : (s.raise flag).queue = s.queue := rfl
@[simp] theorem State.raise_ticketCounter (s : State) (flag : LatchedFlag) :
    (s.raise flag).ticketCounter = s.ticketCounter := rfl
@[simp] theorem State.raise_consecutive (s : State) (flag : LatchedFlag) :
    (s.raise flag).consecutive = s.consecutive := rfl
@[simp] theorem State.raise_stallActive (s : State) (flag : LatchedFlag) :
    (s.raise flag).stallActive = s.stallActive := rfl
@[simp] theorem State.raise_stallReported (s : State) (flag : LatchedFlag) :
    (s.raise flag).stallReported = s.stallReported := rfl
@[simp] theorem State.raise_pollPointer (s : State) (flag : LatchedFlag) :
    (s.raise flag).pollPointer = s.pollPointer := rfl
@[simp] theorem State.raise_mode (s : State) (flag : LatchedFlag) : (s.raise flag).mode = s.mode := rfl
@[simp] theorem State.raise_phase (s : State) (flag : LatchedFlag) : (s.raise flag).phase = s.phase := rfl
@[simp] theorem State.raise_context (s : State) (flag : LatchedFlag) : (s.raise flag).context = s.context := rfl
@[simp] theorem State.raise_tx (s : State) (flag : LatchedFlag) : (s.raise flag).tx = s.tx := rfl
@[simp] theorem State.raise_reception (s : State) (flag : LatchedFlag) : (s.raise flag).reception = s.reception := rfl
@[simp] theorem State.raise_timer (s : State) (flag : LatchedFlag) : (s.raise flag).timer = s.timer := rfl
@[simp] theorem State.raise_receiver (s : State) (flag : LatchedFlag) : (s.raise flag).receiver = s.receiver := rfl
@[simp] theorem State.raise_strayCharacters (s : State) (flag : LatchedFlag) :
    (s.raise flag).strayCharacters = s.strayCharacters := rfl
@[simp] theorem State.raise_conflicts (s : State) (flag : LatchedFlag) : (s.raise flag).conflicts = s.conflicts := rfl
@[simp] theorem State.raise_breaks (s : State) (flag : LatchedFlag) : (s.raise flag).breaks = s.breaks := rfl
@[simp] theorem State.raise_lineConfig (s : State) (flag : LatchedFlag) :
    (s.raise flag).lineConfig = s.lineConfig := rfl
@[simp] theorem State.raise_limits (s : State) (flag : LatchedFlag) : (s.raise flag).limits = s.limits := rfl
@[simp] theorem State.raise_owners (s : State) (flag : LatchedFlag) : (s.raise flag).owners = s.owners := rfl
@[simp] theorem State.raise_freeList (s : State) (flag : LatchedFlag) : (s.raise flag).freeList = s.freeList := rfl
@[simp] theorem State.raise_memory (s : State) (flag : LatchedFlag) : (s.raise flag).memory = s.memory := rfl
@[simp] theorem State.raise_results (s : State) (flag : LatchedFlag) : (s.raise flag).results = s.results := rfl
@[simp] theorem State.raise_reserved (s : State) (flag : LatchedFlag) : (s.raise flag).reserved = s.reserved := rfl
@[simp] theorem State.raise_timeCounter (s : State) (flag : LatchedFlag) :
    (s.raise flag).timeCounter = s.timeCounter := rfl
@[simp] theorem State.raise_prescaler10 (s : State) (flag : LatchedFlag) :
    (s.raise flag).prescaler10 = s.prescaler10 := rfl
@[simp] theorem State.raise_prescaler100 (s : State) (flag : LatchedFlag) :
    (s.raise flag).prescaler100 = s.prescaler100 := rfl
@[simp] theorem State.raise_tick10Given (s : State) (flag : LatchedFlag) :
    (s.raise flag).tick10Given = s.tick10Given := rfl
@[simp] theorem State.raise_tick100Given (s : State) (flag : LatchedFlag) :
    (s.raise flag).tick100Given = s.tick100Given := rfl
@[simp] theorem State.raise_pending (s : State) (flag : LatchedFlag) : (s.raise flag).pending = s.pending := rfl

/-! ### State.loadBits -/

@[simp] theorem State.loadBits_resetHeld (s : State) (kind : TimerKind) (bits : Nat) :
    (s.loadBits kind bits).resetHeld = s.resetHeld := rfl
@[simp] theorem State.loadBits_de (s : State) (kind : TimerKind) (bits : Nat) : (s.loadBits kind bits).de = s.de := rfl
@[simp] theorem State.loadBits_port (s : State) (kind : TimerKind) (bits : Nat) :
    (s.loadBits kind bits).port = s.port := rfl
@[simp] theorem State.loadBits_readData (s : State) (kind : TimerKind) (bits : Nat) :
    (s.loadBits kind bits).readData = s.readData := rfl
@[simp] theorem State.loadBits_args (s : State) (kind : TimerKind) (bits : Nat) :
    (s.loadBits kind bits).args = s.args := rfl
@[simp] theorem State.loadBits_latch (s : State) (kind : TimerKind) (bits : Nat) :
    (s.loadBits kind bits).latch = s.latch := rfl
@[simp] theorem State.loadBits_commandCode (s : State) (kind : TimerKind) (bits : Nat) :
    (s.loadBits kind bits).commandCode = s.commandCode := rfl
@[simp] theorem State.loadBits_unit (s : State) (kind : TimerKind) (bits : Nat) :
    (s.loadBits kind bits).unit = s.unit := rfl
@[simp] theorem State.loadBits_cmdResult (s : State) (kind : TimerKind) (bits : Nat) :
    (s.loadBits kind bits).cmdResult = s.cmdResult := rfl
@[simp] theorem State.loadBits_replies (s : State) (kind : TimerKind) (bits : Nat) :
    (s.loadBits kind bits).replies = s.replies := rfl
@[simp] theorem State.loadBits_bufSelect (s : State) (kind : TimerKind) (bits : Nat) :
    (s.loadBits kind bits).bufSelect = s.bufSelect := rfl
@[simp] theorem State.loadBits_bufOffset (s : State) (kind : TimerKind) (bits : Nat) :
    (s.loadBits kind bits).bufOffset = s.bufOffset := rfl
@[simp] theorem State.loadBits_faultReg (s : State) (kind : TimerKind) (bits : Nat) :
    (s.loadBits kind bits).faultReg = s.faultReg := rfl
@[simp] theorem State.loadBits_timeSnapshot (s : State) (kind : TimerKind) (bits : Nat) :
    (s.loadBits kind bits).timeSnapshot = s.timeSnapshot := rfl
@[simp] theorem State.loadBits_taken (s : State) (kind : TimerKind) (bits : Nat) :
    (s.loadBits kind bits).taken = s.taken := rfl
@[simp] theorem State.loadBits_events (s : State) (kind : TimerKind) (bits : Nat) :
    (s.loadBits kind bits).events = s.events := rfl
@[simp] theorem State.loadBits_enableA (s : State) (kind : TimerKind) (bits : Nat) :
    (s.loadBits kind bits).enableA = s.enableA := rfl
@[simp] theorem State.loadBits_enableB (s : State) (kind : TimerKind) (bits : Nat) :
    (s.loadBits kind bits).enableB = s.enableB := rfl
@[simp] theorem State.loadBits_stations (s : State) (kind : TimerKind) (bits : Nat) :
    (s.loadBits kind bits).stations = s.stations := rfl
@[simp] theorem State.loadBits_queue (s : State) (kind : TimerKind) (bits : Nat) :
    (s.loadBits kind bits).queue = s.queue := rfl
@[simp] theorem State.loadBits_ticketCounter (s : State) (kind : TimerKind) (bits : Nat) :
    (s.loadBits kind bits).ticketCounter = s.ticketCounter := rfl
@[simp] theorem State.loadBits_consecutive (s : State) (kind : TimerKind) (bits : Nat) :
    (s.loadBits kind bits).consecutive = s.consecutive := rfl
@[simp] theorem State.loadBits_stallActive (s : State) (kind : TimerKind) (bits : Nat) :
    (s.loadBits kind bits).stallActive = s.stallActive := rfl
@[simp] theorem State.loadBits_stallReported (s : State) (kind : TimerKind) (bits : Nat) :
    (s.loadBits kind bits).stallReported = s.stallReported := rfl
@[simp] theorem State.loadBits_pollPointer (s : State) (kind : TimerKind) (bits : Nat) :
    (s.loadBits kind bits).pollPointer = s.pollPointer := rfl
@[simp] theorem State.loadBits_mode (s : State) (kind : TimerKind) (bits : Nat) :
    (s.loadBits kind bits).mode = s.mode := rfl
@[simp] theorem State.loadBits_phase (s : State) (kind : TimerKind) (bits : Nat) :
    (s.loadBits kind bits).phase = s.phase := rfl
@[simp] theorem State.loadBits_context (s : State) (kind : TimerKind) (bits : Nat) :
    (s.loadBits kind bits).context = s.context := rfl
@[simp] theorem State.loadBits_tx (s : State) (kind : TimerKind) (bits : Nat) : (s.loadBits kind bits).tx = s.tx := rfl
@[simp] theorem State.loadBits_reception (s : State) (kind : TimerKind) (bits : Nat) :
    (s.loadBits kind bits).reception = s.reception := rfl
@[simp] theorem State.loadBits_timer (s : State) (kind : TimerKind) (bits : Nat) :
    (s.loadBits kind bits).timer = { kind := kind, bits := bits } := rfl
@[simp] theorem State.loadBits_receiver (s : State) (kind : TimerKind) (bits : Nat) :
    (s.loadBits kind bits).receiver = s.receiver := rfl
@[simp] theorem State.loadBits_strayCharacters (s : State) (kind : TimerKind) (bits : Nat) :
    (s.loadBits kind bits).strayCharacters = s.strayCharacters := rfl
@[simp] theorem State.loadBits_conflicts (s : State) (kind : TimerKind) (bits : Nat) :
    (s.loadBits kind bits).conflicts = s.conflicts := rfl
@[simp] theorem State.loadBits_breaks (s : State) (kind : TimerKind) (bits : Nat) :
    (s.loadBits kind bits).breaks = s.breaks := rfl
@[simp] theorem State.loadBits_lineConfig (s : State) (kind : TimerKind) (bits : Nat) :
    (s.loadBits kind bits).lineConfig = s.lineConfig := rfl
@[simp] theorem State.loadBits_limits (s : State) (kind : TimerKind) (bits : Nat) :
    (s.loadBits kind bits).limits = s.limits := rfl
@[simp] theorem State.loadBits_owners (s : State) (kind : TimerKind) (bits : Nat) :
    (s.loadBits kind bits).owners = s.owners := rfl
@[simp] theorem State.loadBits_freeList (s : State) (kind : TimerKind) (bits : Nat) :
    (s.loadBits kind bits).freeList = s.freeList := rfl
@[simp] theorem State.loadBits_memory (s : State) (kind : TimerKind) (bits : Nat) :
    (s.loadBits kind bits).memory = s.memory := rfl
@[simp] theorem State.loadBits_results (s : State) (kind : TimerKind) (bits : Nat) :
    (s.loadBits kind bits).results = s.results := rfl
@[simp] theorem State.loadBits_reserved (s : State) (kind : TimerKind) (bits : Nat) :
    (s.loadBits kind bits).reserved = s.reserved := rfl
@[simp] theorem State.loadBits_timeCounter (s : State) (kind : TimerKind) (bits : Nat) :
    (s.loadBits kind bits).timeCounter = s.timeCounter := rfl
@[simp] theorem State.loadBits_prescaler10 (s : State) (kind : TimerKind) (bits : Nat) :
    (s.loadBits kind bits).prescaler10 = s.prescaler10 := rfl
@[simp] theorem State.loadBits_prescaler100 (s : State) (kind : TimerKind) (bits : Nat) :
    (s.loadBits kind bits).prescaler100 = s.prescaler100 := rfl
@[simp] theorem State.loadBits_tick10Given (s : State) (kind : TimerKind) (bits : Nat) :
    (s.loadBits kind bits).tick10Given = s.tick10Given := rfl
@[simp] theorem State.loadBits_tick100Given (s : State) (kind : TimerKind) (bits : Nat) :
    (s.loadBits kind bits).tick100Given = s.tick100Given := rfl
@[simp] theorem State.loadBits_pending (s : State) (kind : TimerKind) (bits : Nat) :
    (s.loadBits kind bits).pending = s.pending := rfl

/-! ### State.loadCharacters -/

@[simp] theorem State.loadCharacters_resetHeld (s : State) (kind : TimerKind) (n : Nat) :
    (s.loadCharacters kind n).resetHeld = s.resetHeld := rfl
@[simp] theorem State.loadCharacters_de (s : State) (kind : TimerKind) (n : Nat) :
    (s.loadCharacters kind n).de = s.de := rfl
@[simp] theorem State.loadCharacters_port (s : State) (kind : TimerKind) (n : Nat) :
    (s.loadCharacters kind n).port = s.port := rfl
@[simp] theorem State.loadCharacters_readData (s : State) (kind : TimerKind) (n : Nat) :
    (s.loadCharacters kind n).readData = s.readData := rfl
@[simp] theorem State.loadCharacters_args (s : State) (kind : TimerKind) (n : Nat) :
    (s.loadCharacters kind n).args = s.args := rfl
@[simp] theorem State.loadCharacters_latch (s : State) (kind : TimerKind) (n : Nat) :
    (s.loadCharacters kind n).latch = s.latch := rfl
@[simp] theorem State.loadCharacters_commandCode (s : State) (kind : TimerKind) (n : Nat) :
    (s.loadCharacters kind n).commandCode = s.commandCode := rfl
@[simp] theorem State.loadCharacters_unit (s : State) (kind : TimerKind) (n : Nat) :
    (s.loadCharacters kind n).unit = s.unit := rfl
@[simp] theorem State.loadCharacters_cmdResult (s : State) (kind : TimerKind) (n : Nat) :
    (s.loadCharacters kind n).cmdResult = s.cmdResult := rfl
@[simp] theorem State.loadCharacters_replies (s : State) (kind : TimerKind) (n : Nat) :
    (s.loadCharacters kind n).replies = s.replies := rfl
@[simp] theorem State.loadCharacters_bufSelect (s : State) (kind : TimerKind) (n : Nat) :
    (s.loadCharacters kind n).bufSelect = s.bufSelect := rfl
@[simp] theorem State.loadCharacters_bufOffset (s : State) (kind : TimerKind) (n : Nat) :
    (s.loadCharacters kind n).bufOffset = s.bufOffset := rfl
@[simp] theorem State.loadCharacters_faultReg (s : State) (kind : TimerKind) (n : Nat) :
    (s.loadCharacters kind n).faultReg = s.faultReg := rfl
@[simp] theorem State.loadCharacters_timeSnapshot (s : State) (kind : TimerKind) (n : Nat) :
    (s.loadCharacters kind n).timeSnapshot = s.timeSnapshot := rfl
@[simp] theorem State.loadCharacters_taken (s : State) (kind : TimerKind) (n : Nat) :
    (s.loadCharacters kind n).taken = s.taken := rfl
@[simp] theorem State.loadCharacters_events (s : State) (kind : TimerKind) (n : Nat) :
    (s.loadCharacters kind n).events = s.events := rfl
@[simp] theorem State.loadCharacters_enableA (s : State) (kind : TimerKind) (n : Nat) :
    (s.loadCharacters kind n).enableA = s.enableA := rfl
@[simp] theorem State.loadCharacters_enableB (s : State) (kind : TimerKind) (n : Nat) :
    (s.loadCharacters kind n).enableB = s.enableB := rfl
@[simp] theorem State.loadCharacters_stations (s : State) (kind : TimerKind) (n : Nat) :
    (s.loadCharacters kind n).stations = s.stations := rfl
@[simp] theorem State.loadCharacters_queue (s : State) (kind : TimerKind) (n : Nat) :
    (s.loadCharacters kind n).queue = s.queue := rfl
@[simp] theorem State.loadCharacters_ticketCounter (s : State) (kind : TimerKind) (n : Nat) :
    (s.loadCharacters kind n).ticketCounter = s.ticketCounter := rfl
@[simp] theorem State.loadCharacters_consecutive (s : State) (kind : TimerKind) (n : Nat) :
    (s.loadCharacters kind n).consecutive = s.consecutive := rfl
@[simp] theorem State.loadCharacters_stallActive (s : State) (kind : TimerKind) (n : Nat) :
    (s.loadCharacters kind n).stallActive = s.stallActive := rfl
@[simp] theorem State.loadCharacters_stallReported (s : State) (kind : TimerKind) (n : Nat) :
    (s.loadCharacters kind n).stallReported = s.stallReported := rfl
@[simp] theorem State.loadCharacters_pollPointer (s : State) (kind : TimerKind) (n : Nat) :
    (s.loadCharacters kind n).pollPointer = s.pollPointer := rfl
@[simp] theorem State.loadCharacters_mode (s : State) (kind : TimerKind) (n : Nat) :
    (s.loadCharacters kind n).mode = s.mode := rfl
@[simp] theorem State.loadCharacters_phase (s : State) (kind : TimerKind) (n : Nat) :
    (s.loadCharacters kind n).phase = s.phase := rfl
@[simp] theorem State.loadCharacters_context (s : State) (kind : TimerKind) (n : Nat) :
    (s.loadCharacters kind n).context = s.context := rfl
@[simp] theorem State.loadCharacters_tx (s : State) (kind : TimerKind) (n : Nat) :
    (s.loadCharacters kind n).tx = s.tx := rfl
@[simp] theorem State.loadCharacters_reception (s : State) (kind : TimerKind) (n : Nat) :
    (s.loadCharacters kind n).reception = s.reception := rfl
@[simp] theorem State.loadCharacters_timer (s : State) (kind : TimerKind) (n : Nat) :
    (s.loadCharacters kind n).timer = { kind := kind, bits := n * s.characterBits } := rfl
@[simp] theorem State.loadCharacters_receiver (s : State) (kind : TimerKind) (n : Nat) :
    (s.loadCharacters kind n).receiver = s.receiver := rfl
@[simp] theorem State.loadCharacters_strayCharacters (s : State) (kind : TimerKind) (n : Nat) :
    (s.loadCharacters kind n).strayCharacters = s.strayCharacters := rfl
@[simp] theorem State.loadCharacters_conflicts (s : State) (kind : TimerKind) (n : Nat) :
    (s.loadCharacters kind n).conflicts = s.conflicts := rfl
@[simp] theorem State.loadCharacters_breaks (s : State) (kind : TimerKind) (n : Nat) :
    (s.loadCharacters kind n).breaks = s.breaks := rfl
@[simp] theorem State.loadCharacters_lineConfig (s : State) (kind : TimerKind) (n : Nat) :
    (s.loadCharacters kind n).lineConfig = s.lineConfig := rfl
@[simp] theorem State.loadCharacters_limits (s : State) (kind : TimerKind) (n : Nat) :
    (s.loadCharacters kind n).limits = s.limits := rfl
@[simp] theorem State.loadCharacters_owners (s : State) (kind : TimerKind) (n : Nat) :
    (s.loadCharacters kind n).owners = s.owners := rfl
@[simp] theorem State.loadCharacters_freeList (s : State) (kind : TimerKind) (n : Nat) :
    (s.loadCharacters kind n).freeList = s.freeList := rfl
@[simp] theorem State.loadCharacters_memory (s : State) (kind : TimerKind) (n : Nat) :
    (s.loadCharacters kind n).memory = s.memory := rfl
@[simp] theorem State.loadCharacters_results (s : State) (kind : TimerKind) (n : Nat) :
    (s.loadCharacters kind n).results = s.results := rfl
@[simp] theorem State.loadCharacters_reserved (s : State) (kind : TimerKind) (n : Nat) :
    (s.loadCharacters kind n).reserved = s.reserved := rfl
@[simp] theorem State.loadCharacters_timeCounter (s : State) (kind : TimerKind) (n : Nat) :
    (s.loadCharacters kind n).timeCounter = s.timeCounter := rfl
@[simp] theorem State.loadCharacters_prescaler10 (s : State) (kind : TimerKind) (n : Nat) :
    (s.loadCharacters kind n).prescaler10 = s.prescaler10 := rfl
@[simp] theorem State.loadCharacters_prescaler100 (s : State) (kind : TimerKind) (n : Nat) :
    (s.loadCharacters kind n).prescaler100 = s.prescaler100 := rfl
@[simp] theorem State.loadCharacters_tick10Given (s : State) (kind : TimerKind) (n : Nat) :
    (s.loadCharacters kind n).tick10Given = s.tick10Given := rfl
@[simp] theorem State.loadCharacters_tick100Given (s : State) (kind : TimerKind) (n : Nat) :
    (s.loadCharacters kind n).tick100Given = s.tick100Given := rfl
@[simp] theorem State.loadCharacters_pending (s : State) (kind : TimerKind) (n : Nat) :
    (s.loadCharacters kind n).pending = s.pending := rfl

/-! ### State.enterGap -/

@[simp] theorem State.enterGap_resetHeld (s : State) : (s.enterGap).resetHeld = s.resetHeld := rfl
@[simp] theorem State.enterGap_de (s : State) : (s.enterGap).de = s.de := rfl
@[simp] theorem State.enterGap_port (s : State) : (s.enterGap).port = s.port := rfl
@[simp] theorem State.enterGap_readData (s : State) : (s.enterGap).readData = s.readData := rfl
@[simp] theorem State.enterGap_args (s : State) : (s.enterGap).args = s.args := rfl
@[simp] theorem State.enterGap_latch (s : State) : (s.enterGap).latch = s.latch := rfl
@[simp] theorem State.enterGap_commandCode (s : State) : (s.enterGap).commandCode = s.commandCode := rfl
@[simp] theorem State.enterGap_unit (s : State) : (s.enterGap).unit = s.unit := rfl
@[simp] theorem State.enterGap_cmdResult (s : State) : (s.enterGap).cmdResult = s.cmdResult := rfl
@[simp] theorem State.enterGap_replies (s : State) : (s.enterGap).replies = s.replies := rfl
@[simp] theorem State.enterGap_bufSelect (s : State) : (s.enterGap).bufSelect = s.bufSelect := rfl
@[simp] theorem State.enterGap_bufOffset (s : State) : (s.enterGap).bufOffset = s.bufOffset := rfl
@[simp] theorem State.enterGap_faultReg (s : State) : (s.enterGap).faultReg = s.faultReg := rfl
@[simp] theorem State.enterGap_timeSnapshot (s : State) : (s.enterGap).timeSnapshot = s.timeSnapshot := rfl
@[simp] theorem State.enterGap_taken (s : State) : (s.enterGap).taken = s.taken := rfl
@[simp] theorem State.enterGap_events (s : State) : (s.enterGap).events = s.events := rfl
@[simp] theorem State.enterGap_enableA (s : State) : (s.enterGap).enableA = s.enableA := rfl
@[simp] theorem State.enterGap_enableB (s : State) : (s.enterGap).enableB = s.enableB := rfl
@[simp] theorem State.enterGap_stations (s : State) : (s.enterGap).stations = s.stations := rfl
@[simp] theorem State.enterGap_queue (s : State) : (s.enterGap).queue = s.queue := rfl
@[simp] theorem State.enterGap_ticketCounter (s : State) : (s.enterGap).ticketCounter = s.ticketCounter := rfl
@[simp] theorem State.enterGap_consecutive (s : State) : (s.enterGap).consecutive = s.consecutive := rfl
@[simp] theorem State.enterGap_stallActive (s : State) : (s.enterGap).stallActive = s.stallActive := rfl
@[simp] theorem State.enterGap_stallReported (s : State) : (s.enterGap).stallReported = s.stallReported := rfl
@[simp] theorem State.enterGap_pollPointer (s : State) : (s.enterGap).pollPointer = s.pollPointer := rfl
@[simp] theorem State.enterGap_mode (s : State) : (s.enterGap).mode = s.mode := rfl
@[simp] theorem State.enterGap_phase (s : State) : (s.enterGap).phase = .gap := rfl
@[simp] theorem State.enterGap_context (s : State) : (s.enterGap).context = s.context := rfl
@[simp] theorem State.enterGap_tx (s : State) : (s.enterGap).tx = s.tx := rfl
@[simp] theorem State.enterGap_reception (s : State) : (s.enterGap).reception = s.reception := rfl
@[simp] theorem State.enterGap_timer (s : State) :
    (s.enterGap).timer = { kind := .telegramGap, bits := s.lineConfig.telegramGap * s.characterBits } := rfl
@[simp] theorem State.enterGap_receiver (s : State) : (s.enterGap).receiver = s.receiver := rfl
@[simp] theorem State.enterGap_strayCharacters (s : State) : (s.enterGap).strayCharacters = s.strayCharacters := rfl
@[simp] theorem State.enterGap_conflicts (s : State) : (s.enterGap).conflicts = s.conflicts := rfl
@[simp] theorem State.enterGap_breaks (s : State) : (s.enterGap).breaks = s.breaks := rfl
@[simp] theorem State.enterGap_lineConfig (s : State) : (s.enterGap).lineConfig = s.lineConfig := rfl
@[simp] theorem State.enterGap_limits (s : State) : (s.enterGap).limits = s.limits := rfl
@[simp] theorem State.enterGap_owners (s : State) : (s.enterGap).owners = s.owners := rfl
@[simp] theorem State.enterGap_freeList (s : State) : (s.enterGap).freeList = s.freeList := rfl
@[simp] theorem State.enterGap_memory (s : State) : (s.enterGap).memory = s.memory := rfl
@[simp] theorem State.enterGap_results (s : State) : (s.enterGap).results = s.results := rfl
@[simp] theorem State.enterGap_reserved (s : State) : (s.enterGap).reserved = s.reserved := rfl
@[simp] theorem State.enterGap_timeCounter (s : State) : (s.enterGap).timeCounter = s.timeCounter := rfl
@[simp] theorem State.enterGap_prescaler10 (s : State) : (s.enterGap).prescaler10 = s.prescaler10 := rfl
@[simp] theorem State.enterGap_prescaler100 (s : State) : (s.enterGap).prescaler100 = s.prescaler100 := rfl
@[simp] theorem State.enterGap_tick10Given (s : State) : (s.enterGap).tick10Given = s.tick10Given := rfl
@[simp] theorem State.enterGap_tick100Given (s : State) : (s.enterGap).tick100Given = s.tick100Given := rfl
@[simp] theorem State.enterGap_pending (s : State) : (s.enterGap).pending = s.pending := rfl

/-! ### State.enterHoldoff -/

@[simp] theorem State.enterHoldoff_resetHeld (s : State) : (s.enterHoldoff).resetHeld = s.resetHeld := rfl
@[simp] theorem State.enterHoldoff_de (s : State) : (s.enterHoldoff).de = s.de := rfl
@[simp] theorem State.enterHoldoff_port (s : State) : (s.enterHoldoff).port = s.port := rfl
@[simp] theorem State.enterHoldoff_readData (s : State) : (s.enterHoldoff).readData = s.readData := rfl
@[simp] theorem State.enterHoldoff_args (s : State) : (s.enterHoldoff).args = s.args := rfl
@[simp] theorem State.enterHoldoff_latch (s : State) : (s.enterHoldoff).latch = s.latch := rfl
@[simp] theorem State.enterHoldoff_commandCode (s : State) : (s.enterHoldoff).commandCode = s.commandCode := rfl
@[simp] theorem State.enterHoldoff_unit (s : State) : (s.enterHoldoff).unit = s.unit := rfl
@[simp] theorem State.enterHoldoff_cmdResult (s : State) : (s.enterHoldoff).cmdResult = s.cmdResult := rfl
@[simp] theorem State.enterHoldoff_replies (s : State) : (s.enterHoldoff).replies = s.replies := rfl
@[simp] theorem State.enterHoldoff_bufSelect (s : State) : (s.enterHoldoff).bufSelect = s.bufSelect := rfl
@[simp] theorem State.enterHoldoff_bufOffset (s : State) : (s.enterHoldoff).bufOffset = s.bufOffset := rfl
@[simp] theorem State.enterHoldoff_faultReg (s : State) : (s.enterHoldoff).faultReg = s.faultReg := rfl
@[simp] theorem State.enterHoldoff_timeSnapshot (s : State) : (s.enterHoldoff).timeSnapshot = s.timeSnapshot := rfl
@[simp] theorem State.enterHoldoff_taken (s : State) : (s.enterHoldoff).taken = s.taken := rfl
@[simp] theorem State.enterHoldoff_events (s : State) : (s.enterHoldoff).events = s.events := rfl
@[simp] theorem State.enterHoldoff_enableA (s : State) : (s.enterHoldoff).enableA = s.enableA := rfl
@[simp] theorem State.enterHoldoff_enableB (s : State) : (s.enterHoldoff).enableB = s.enableB := rfl
@[simp] theorem State.enterHoldoff_stations (s : State) : (s.enterHoldoff).stations = s.stations := rfl
@[simp] theorem State.enterHoldoff_queue (s : State) : (s.enterHoldoff).queue = s.queue := rfl
@[simp] theorem State.enterHoldoff_ticketCounter (s : State) : (s.enterHoldoff).ticketCounter = s.ticketCounter := rfl
@[simp] theorem State.enterHoldoff_consecutive (s : State) : (s.enterHoldoff).consecutive = s.consecutive := rfl
@[simp] theorem State.enterHoldoff_stallActive (s : State) : (s.enterHoldoff).stallActive = s.stallActive := rfl
@[simp] theorem State.enterHoldoff_stallReported (s : State) : (s.enterHoldoff).stallReported = s.stallReported := rfl
@[simp] theorem State.enterHoldoff_pollPointer (s : State) : (s.enterHoldoff).pollPointer = s.pollPointer := rfl
@[simp] theorem State.enterHoldoff_mode (s : State) : (s.enterHoldoff).mode = s.mode := rfl
@[simp] theorem State.enterHoldoff_phase (s : State) : (s.enterHoldoff).phase = .holdoff := rfl
@[simp] theorem State.enterHoldoff_context (s : State) : (s.enterHoldoff).context = s.context := rfl
@[simp] theorem State.enterHoldoff_tx (s : State) : (s.enterHoldoff).tx = s.tx := rfl
@[simp] theorem State.enterHoldoff_reception (s : State) : (s.enterHoldoff).reception = s.reception := rfl
@[simp] theorem State.enterHoldoff_timer (s : State) :
    (s.enterHoldoff).timer = { kind := .holdoff, bits := s.lineConfig.holdoff * s.characterBits } := rfl
@[simp] theorem State.enterHoldoff_receiver (s : State) : (s.enterHoldoff).receiver = s.receiver := rfl
@[simp] theorem State.enterHoldoff_strayCharacters (s : State) :
    (s.enterHoldoff).strayCharacters = s.strayCharacters := rfl
@[simp] theorem State.enterHoldoff_conflicts (s : State) : (s.enterHoldoff).conflicts = s.conflicts := rfl
@[simp] theorem State.enterHoldoff_breaks (s : State) : (s.enterHoldoff).breaks = s.breaks := rfl
@[simp] theorem State.enterHoldoff_lineConfig (s : State) : (s.enterHoldoff).lineConfig = s.lineConfig := rfl
@[simp] theorem State.enterHoldoff_limits (s : State) : (s.enterHoldoff).limits = s.limits := rfl
@[simp] theorem State.enterHoldoff_owners (s : State) : (s.enterHoldoff).owners = s.owners := rfl
@[simp] theorem State.enterHoldoff_freeList (s : State) : (s.enterHoldoff).freeList = s.freeList := rfl
@[simp] theorem State.enterHoldoff_memory (s : State) : (s.enterHoldoff).memory = s.memory := rfl
@[simp] theorem State.enterHoldoff_results (s : State) : (s.enterHoldoff).results = s.results := rfl
@[simp] theorem State.enterHoldoff_reserved (s : State) : (s.enterHoldoff).reserved = s.reserved := rfl
@[simp] theorem State.enterHoldoff_timeCounter (s : State) : (s.enterHoldoff).timeCounter = s.timeCounter := rfl
@[simp] theorem State.enterHoldoff_prescaler10 (s : State) : (s.enterHoldoff).prescaler10 = s.prescaler10 := rfl
@[simp] theorem State.enterHoldoff_prescaler100 (s : State) : (s.enterHoldoff).prescaler100 = s.prescaler100 := rfl
@[simp] theorem State.enterHoldoff_tick10Given (s : State) : (s.enterHoldoff).tick10Given = s.tick10Given := rfl
@[simp] theorem State.enterHoldoff_tick100Given (s : State) : (s.enterHoldoff).tick100Given = s.tick100Given := rfl
@[simp] theorem State.enterHoldoff_pending (s : State) : (s.enterHoldoff).pending = s.pending := rfl

/-! ### State.enterSettling -/

@[simp] theorem State.enterSettling_resetHeld (s : State) : (s.enterSettling).resetHeld = s.resetHeld := rfl
@[simp] theorem State.enterSettling_de (s : State) : (s.enterSettling).de = s.de := rfl
@[simp] theorem State.enterSettling_port (s : State) : (s.enterSettling).port = s.port := rfl
@[simp] theorem State.enterSettling_readData (s : State) : (s.enterSettling).readData = s.readData := rfl
@[simp] theorem State.enterSettling_args (s : State) : (s.enterSettling).args = s.args := rfl
@[simp] theorem State.enterSettling_latch (s : State) : (s.enterSettling).latch = s.latch := rfl
@[simp] theorem State.enterSettling_commandCode (s : State) : (s.enterSettling).commandCode = s.commandCode := rfl
@[simp] theorem State.enterSettling_unit (s : State) : (s.enterSettling).unit = s.unit := rfl
@[simp] theorem State.enterSettling_cmdResult (s : State) : (s.enterSettling).cmdResult = s.cmdResult := rfl
@[simp] theorem State.enterSettling_replies (s : State) : (s.enterSettling).replies = s.replies := rfl
@[simp] theorem State.enterSettling_bufSelect (s : State) : (s.enterSettling).bufSelect = s.bufSelect := rfl
@[simp] theorem State.enterSettling_bufOffset (s : State) : (s.enterSettling).bufOffset = s.bufOffset := rfl
@[simp] theorem State.enterSettling_faultReg (s : State) : (s.enterSettling).faultReg = s.faultReg := rfl
@[simp] theorem State.enterSettling_timeSnapshot (s : State) : (s.enterSettling).timeSnapshot = s.timeSnapshot := rfl
@[simp] theorem State.enterSettling_taken (s : State) : (s.enterSettling).taken = s.taken := rfl
@[simp] theorem State.enterSettling_events (s : State) : (s.enterSettling).events = s.events := rfl
@[simp] theorem State.enterSettling_enableA (s : State) : (s.enterSettling).enableA = s.enableA := rfl
@[simp] theorem State.enterSettling_enableB (s : State) : (s.enterSettling).enableB = s.enableB := rfl
@[simp] theorem State.enterSettling_stations (s : State) : (s.enterSettling).stations = s.stations := rfl
@[simp] theorem State.enterSettling_queue (s : State) : (s.enterSettling).queue = s.queue := rfl
@[simp] theorem State.enterSettling_ticketCounter (s : State) :
    (s.enterSettling).ticketCounter = s.ticketCounter := rfl
@[simp] theorem State.enterSettling_consecutive (s : State) : (s.enterSettling).consecutive = s.consecutive := rfl
@[simp] theorem State.enterSettling_stallActive (s : State) : (s.enterSettling).stallActive = s.stallActive := rfl
@[simp] theorem State.enterSettling_stallReported (s : State) :
    (s.enterSettling).stallReported = s.stallReported := rfl
@[simp] theorem State.enterSettling_pollPointer (s : State) : (s.enterSettling).pollPointer = s.pollPointer := rfl
@[simp] theorem State.enterSettling_mode (s : State) : (s.enterSettling).mode = s.mode := rfl
@[simp] theorem State.enterSettling_phase (s : State) : (s.enterSettling).phase = .settling := rfl
@[simp] theorem State.enterSettling_context (s : State) : (s.enterSettling).context = s.context := rfl
@[simp] theorem State.enterSettling_tx (s : State) : (s.enterSettling).tx = s.tx := rfl
@[simp] theorem State.enterSettling_reception (s : State) : (s.enterSettling).reception = s.reception := rfl
@[simp] theorem State.enterSettling_timer (s : State) :
    (s.enterSettling).timer = { kind := .settle, bits := s.lineConfig.telegramGap * s.characterBits } := rfl
@[simp] theorem State.enterSettling_receiver (s : State) : (s.enterSettling).receiver = s.receiver := rfl
@[simp] theorem State.enterSettling_strayCharacters (s : State) :
    (s.enterSettling).strayCharacters = s.strayCharacters := rfl
@[simp] theorem State.enterSettling_conflicts (s : State) : (s.enterSettling).conflicts = s.conflicts := rfl
@[simp] theorem State.enterSettling_breaks (s : State) : (s.enterSettling).breaks = s.breaks := rfl
@[simp] theorem State.enterSettling_lineConfig (s : State) : (s.enterSettling).lineConfig = s.lineConfig := rfl
@[simp] theorem State.enterSettling_limits (s : State) : (s.enterSettling).limits = s.limits := rfl
@[simp] theorem State.enterSettling_owners (s : State) : (s.enterSettling).owners = s.owners := rfl
@[simp] theorem State.enterSettling_freeList (s : State) : (s.enterSettling).freeList = s.freeList := rfl
@[simp] theorem State.enterSettling_memory (s : State) : (s.enterSettling).memory = s.memory := rfl
@[simp] theorem State.enterSettling_results (s : State) : (s.enterSettling).results = s.results := rfl
@[simp] theorem State.enterSettling_reserved (s : State) : (s.enterSettling).reserved = s.reserved := rfl
@[simp] theorem State.enterSettling_timeCounter (s : State) : (s.enterSettling).timeCounter = s.timeCounter := rfl
@[simp] theorem State.enterSettling_prescaler10 (s : State) : (s.enterSettling).prescaler10 = s.prescaler10 := rfl
@[simp] theorem State.enterSettling_prescaler100 (s : State) : (s.enterSettling).prescaler100 = s.prescaler100 := rfl
@[simp] theorem State.enterSettling_tick10Given (s : State) : (s.enterSettling).tick10Given = s.tick10Given := rfl
@[simp] theorem State.enterSettling_tick100Given (s : State) : (s.enterSettling).tick100Given = s.tick100Given := rfl
@[simp] theorem State.enterSettling_pending (s : State) : (s.enterSettling).pending = s.pending := rfl

/-! ### State.enterIdle -/

@[simp] theorem State.enterIdle_resetHeld (s : State) : (s.enterIdle).resetHeld = s.resetHeld := rfl
@[simp] theorem State.enterIdle_de (s : State) : (s.enterIdle).de = s.de := rfl
@[simp] theorem State.enterIdle_port (s : State) : (s.enterIdle).port = s.port := rfl
@[simp] theorem State.enterIdle_readData (s : State) : (s.enterIdle).readData = s.readData := rfl
@[simp] theorem State.enterIdle_args (s : State) : (s.enterIdle).args = s.args := rfl
@[simp] theorem State.enterIdle_latch (s : State) : (s.enterIdle).latch = s.latch := rfl
@[simp] theorem State.enterIdle_commandCode (s : State) : (s.enterIdle).commandCode = s.commandCode := rfl
@[simp] theorem State.enterIdle_unit (s : State) : (s.enterIdle).unit = s.unit := rfl
@[simp] theorem State.enterIdle_cmdResult (s : State) : (s.enterIdle).cmdResult = s.cmdResult := rfl
@[simp] theorem State.enterIdle_replies (s : State) : (s.enterIdle).replies = s.replies := rfl
@[simp] theorem State.enterIdle_bufSelect (s : State) : (s.enterIdle).bufSelect = s.bufSelect := rfl
@[simp] theorem State.enterIdle_bufOffset (s : State) : (s.enterIdle).bufOffset = s.bufOffset := rfl
@[simp] theorem State.enterIdle_faultReg (s : State) : (s.enterIdle).faultReg = s.faultReg := rfl
@[simp] theorem State.enterIdle_timeSnapshot (s : State) : (s.enterIdle).timeSnapshot = s.timeSnapshot := rfl
@[simp] theorem State.enterIdle_taken (s : State) : (s.enterIdle).taken = s.taken := rfl
@[simp] theorem State.enterIdle_events (s : State) : (s.enterIdle).events = s.events := rfl
@[simp] theorem State.enterIdle_enableA (s : State) : (s.enterIdle).enableA = s.enableA := rfl
@[simp] theorem State.enterIdle_enableB (s : State) : (s.enterIdle).enableB = s.enableB := rfl
@[simp] theorem State.enterIdle_stations (s : State) : (s.enterIdle).stations = s.stations := rfl
@[simp] theorem State.enterIdle_queue (s : State) : (s.enterIdle).queue = s.queue := rfl
@[simp] theorem State.enterIdle_ticketCounter (s : State) : (s.enterIdle).ticketCounter = s.ticketCounter := rfl
@[simp] theorem State.enterIdle_consecutive (s : State) : (s.enterIdle).consecutive = s.consecutive := rfl
@[simp] theorem State.enterIdle_stallActive (s : State) : (s.enterIdle).stallActive = s.stallActive := rfl
@[simp] theorem State.enterIdle_stallReported (s : State) : (s.enterIdle).stallReported = s.stallReported := rfl
@[simp] theorem State.enterIdle_pollPointer (s : State) : (s.enterIdle).pollPointer = s.pollPointer := rfl
@[simp] theorem State.enterIdle_mode (s : State) : (s.enterIdle).mode = s.mode := rfl
@[simp] theorem State.enterIdle_phase (s : State) : (s.enterIdle).phase = .idle := rfl
@[simp] theorem State.enterIdle_context (s : State) : (s.enterIdle).context = s.context := rfl
@[simp] theorem State.enterIdle_tx (s : State) : (s.enterIdle).tx = s.tx := rfl
@[simp] theorem State.enterIdle_reception (s : State) : (s.enterIdle).reception = s.reception := rfl
@[simp] theorem State.enterIdle_timer (s : State) : (s.enterIdle).timer = LineTimer.off := rfl
@[simp] theorem State.enterIdle_receiver (s : State) : (s.enterIdle).receiver = s.receiver := rfl
@[simp] theorem State.enterIdle_strayCharacters (s : State) : (s.enterIdle).strayCharacters = s.strayCharacters := rfl
@[simp] theorem State.enterIdle_conflicts (s : State) : (s.enterIdle).conflicts = s.conflicts := rfl
@[simp] theorem State.enterIdle_breaks (s : State) : (s.enterIdle).breaks = s.breaks := rfl
@[simp] theorem State.enterIdle_lineConfig (s : State) : (s.enterIdle).lineConfig = s.lineConfig := rfl
@[simp] theorem State.enterIdle_limits (s : State) : (s.enterIdle).limits = s.limits := rfl
@[simp] theorem State.enterIdle_owners (s : State) : (s.enterIdle).owners = s.owners := rfl
@[simp] theorem State.enterIdle_freeList (s : State) : (s.enterIdle).freeList = s.freeList := rfl
@[simp] theorem State.enterIdle_memory (s : State) : (s.enterIdle).memory = s.memory := rfl
@[simp] theorem State.enterIdle_results (s : State) : (s.enterIdle).results = s.results := rfl
@[simp] theorem State.enterIdle_reserved (s : State) : (s.enterIdle).reserved = s.reserved := rfl
@[simp] theorem State.enterIdle_timeCounter (s : State) : (s.enterIdle).timeCounter = s.timeCounter := rfl
@[simp] theorem State.enterIdle_prescaler10 (s : State) : (s.enterIdle).prescaler10 = s.prescaler10 := rfl
@[simp] theorem State.enterIdle_prescaler100 (s : State) : (s.enterIdle).prescaler100 = s.prescaler100 := rfl
@[simp] theorem State.enterIdle_tick10Given (s : State) : (s.enterIdle).tick10Given = s.tick10Given := rfl
@[simp] theorem State.enterIdle_tick100Given (s : State) : (s.enterIdle).tick100Given = s.tick100Given := rfl
@[simp] theorem State.enterIdle_pending (s : State) : (s.enterIdle).pending = s.pending := rfl

/-! ### State.releaseLine -/

@[simp] theorem State.releaseLine_resetHeld (s : State) : (s.releaseLine).resetHeld = s.resetHeld := rfl
@[simp] theorem State.releaseLine_de (s : State) : (s.releaseLine).de = false := rfl
@[simp] theorem State.releaseLine_port (s : State) : (s.releaseLine).port = s.port := rfl
@[simp] theorem State.releaseLine_readData (s : State) : (s.releaseLine).readData = s.readData := rfl
@[simp] theorem State.releaseLine_args (s : State) : (s.releaseLine).args = s.args := rfl
@[simp] theorem State.releaseLine_latch (s : State) : (s.releaseLine).latch = s.latch := rfl
@[simp] theorem State.releaseLine_commandCode (s : State) : (s.releaseLine).commandCode = s.commandCode := rfl
@[simp] theorem State.releaseLine_unit (s : State) : (s.releaseLine).unit = s.unit := rfl
@[simp] theorem State.releaseLine_cmdResult (s : State) : (s.releaseLine).cmdResult = s.cmdResult := rfl
@[simp] theorem State.releaseLine_replies (s : State) : (s.releaseLine).replies = s.replies := rfl
@[simp] theorem State.releaseLine_bufSelect (s : State) : (s.releaseLine).bufSelect = s.bufSelect := rfl
@[simp] theorem State.releaseLine_bufOffset (s : State) : (s.releaseLine).bufOffset = s.bufOffset := rfl
@[simp] theorem State.releaseLine_faultReg (s : State) : (s.releaseLine).faultReg = s.faultReg := rfl
@[simp] theorem State.releaseLine_timeSnapshot (s : State) : (s.releaseLine).timeSnapshot = s.timeSnapshot := rfl
@[simp] theorem State.releaseLine_taken (s : State) : (s.releaseLine).taken = s.taken := rfl
@[simp] theorem State.releaseLine_events (s : State) : (s.releaseLine).events = s.events := rfl
@[simp] theorem State.releaseLine_enableA (s : State) : (s.releaseLine).enableA = s.enableA := rfl
@[simp] theorem State.releaseLine_enableB (s : State) : (s.releaseLine).enableB = s.enableB := rfl
@[simp] theorem State.releaseLine_stations (s : State) : (s.releaseLine).stations = s.stations := rfl
@[simp] theorem State.releaseLine_queue (s : State) : (s.releaseLine).queue = s.queue := rfl
@[simp] theorem State.releaseLine_ticketCounter (s : State) : (s.releaseLine).ticketCounter = s.ticketCounter := rfl
@[simp] theorem State.releaseLine_consecutive (s : State) : (s.releaseLine).consecutive = s.consecutive := rfl
@[simp] theorem State.releaseLine_stallActive (s : State) : (s.releaseLine).stallActive = s.stallActive := rfl
@[simp] theorem State.releaseLine_stallReported (s : State) : (s.releaseLine).stallReported = s.stallReported := rfl
@[simp] theorem State.releaseLine_pollPointer (s : State) : (s.releaseLine).pollPointer = s.pollPointer := rfl
@[simp] theorem State.releaseLine_mode (s : State) : (s.releaseLine).mode = s.mode := rfl
@[simp] theorem State.releaseLine_phase (s : State) : (s.releaseLine).phase = s.phase := rfl
@[simp] theorem State.releaseLine_context (s : State) : (s.releaseLine).context = s.context := rfl
@[simp] theorem State.releaseLine_tx (s : State) : (s.releaseLine).tx = .quiet := rfl
@[simp] theorem State.releaseLine_reception (s : State) : (s.releaseLine).reception = s.reception := rfl
@[simp] theorem State.releaseLine_timer (s : State) : (s.releaseLine).timer = s.timer := rfl
@[simp] theorem State.releaseLine_receiver (s : State) : (s.releaseLine).receiver = s.receiver := rfl
@[simp] theorem State.releaseLine_strayCharacters (s : State) :
    (s.releaseLine).strayCharacters = s.strayCharacters := rfl
@[simp] theorem State.releaseLine_conflicts (s : State) : (s.releaseLine).conflicts = s.conflicts := rfl
@[simp] theorem State.releaseLine_breaks (s : State) : (s.releaseLine).breaks = s.breaks := rfl
@[simp] theorem State.releaseLine_lineConfig (s : State) : (s.releaseLine).lineConfig = s.lineConfig := rfl
@[simp] theorem State.releaseLine_limits (s : State) : (s.releaseLine).limits = s.limits := rfl
@[simp] theorem State.releaseLine_owners (s : State) : (s.releaseLine).owners = s.owners := rfl
@[simp] theorem State.releaseLine_freeList (s : State) : (s.releaseLine).freeList = s.freeList := rfl
@[simp] theorem State.releaseLine_memory (s : State) : (s.releaseLine).memory = s.memory := rfl
@[simp] theorem State.releaseLine_results (s : State) : (s.releaseLine).results = s.results := rfl
@[simp] theorem State.releaseLine_reserved (s : State) : (s.releaseLine).reserved = s.reserved := rfl
@[simp] theorem State.releaseLine_timeCounter (s : State) : (s.releaseLine).timeCounter = s.timeCounter := rfl
@[simp] theorem State.releaseLine_prescaler10 (s : State) : (s.releaseLine).prescaler10 = s.prescaler10 := rfl
@[simp] theorem State.releaseLine_prescaler100 (s : State) : (s.releaseLine).prescaler100 = s.prescaler100 := rfl
@[simp] theorem State.releaseLine_tick10Given (s : State) : (s.releaseLine).tick10Given = s.tick10Given := rfl
@[simp] theorem State.releaseLine_tick100Given (s : State) : (s.releaseLine).tick100Given = s.tick100Given := rfl
@[simp] theorem State.releaseLine_pending (s : State) : (s.releaseLine).pending = s.pending := rfl

/-! ### State.becomeStopped -/

@[simp] theorem State.becomeStopped_resetHeld (s : State) : (s.becomeStopped).resetHeld = s.resetHeld := rfl
@[simp] theorem State.becomeStopped_de (s : State) : (s.becomeStopped).de = s.de := rfl
@[simp] theorem State.becomeStopped_port (s : State) : (s.becomeStopped).port = s.port := rfl
@[simp] theorem State.becomeStopped_readData (s : State) : (s.becomeStopped).readData = s.readData := rfl
@[simp] theorem State.becomeStopped_args (s : State) : (s.becomeStopped).args = s.args := rfl
@[simp] theorem State.becomeStopped_latch (s : State) : (s.becomeStopped).latch = s.latch := rfl
@[simp] theorem State.becomeStopped_commandCode (s : State) : (s.becomeStopped).commandCode = s.commandCode := rfl
@[simp] theorem State.becomeStopped_unit (s : State) : (s.becomeStopped).unit = s.unit := rfl
@[simp] theorem State.becomeStopped_cmdResult (s : State) : (s.becomeStopped).cmdResult = s.cmdResult := rfl
@[simp] theorem State.becomeStopped_replies (s : State) : (s.becomeStopped).replies = s.replies := rfl
@[simp] theorem State.becomeStopped_bufSelect (s : State) : (s.becomeStopped).bufSelect = s.bufSelect := rfl
@[simp] theorem State.becomeStopped_bufOffset (s : State) : (s.becomeStopped).bufOffset = s.bufOffset := rfl
@[simp] theorem State.becomeStopped_faultReg (s : State) : (s.becomeStopped).faultReg = s.faultReg := rfl
@[simp] theorem State.becomeStopped_timeSnapshot (s : State) : (s.becomeStopped).timeSnapshot = s.timeSnapshot := rfl
@[simp] theorem State.becomeStopped_taken (s : State) : (s.becomeStopped).taken = s.taken := rfl
@[simp] theorem State.becomeStopped_events (s : State) : (s.becomeStopped).events = s.events.raise .lineStopped := rfl
@[simp] theorem State.becomeStopped_enableA (s : State) : (s.becomeStopped).enableA = s.enableA := rfl
@[simp] theorem State.becomeStopped_enableB (s : State) : (s.becomeStopped).enableB = s.enableB := rfl
@[simp] theorem State.becomeStopped_stations (s : State) : (s.becomeStopped).stations = s.stations := rfl
@[simp] theorem State.becomeStopped_queue (s : State) : (s.becomeStopped).queue = s.queue := rfl
@[simp] theorem State.becomeStopped_ticketCounter (s : State) :
    (s.becomeStopped).ticketCounter = s.ticketCounter := rfl
@[simp] theorem State.becomeStopped_consecutive (s : State) : (s.becomeStopped).consecutive = s.consecutive := rfl
@[simp] theorem State.becomeStopped_stallActive (s : State) : (s.becomeStopped).stallActive = false := rfl
@[simp] theorem State.becomeStopped_stallReported (s : State) :
    (s.becomeStopped).stallReported = s.stallReported := rfl
@[simp] theorem State.becomeStopped_pollPointer (s : State) : (s.becomeStopped).pollPointer = s.pollPointer := rfl
@[simp] theorem State.becomeStopped_mode (s : State) : (s.becomeStopped).mode = .stopped := rfl
@[simp] theorem State.becomeStopped_phase (s : State) : (s.becomeStopped).phase = .idle := rfl
@[simp] theorem State.becomeStopped_context (s : State) : (s.becomeStopped).context = s.context := rfl
@[simp] theorem State.becomeStopped_tx (s : State) : (s.becomeStopped).tx = s.tx := rfl
@[simp] theorem State.becomeStopped_reception (s : State) : (s.becomeStopped).reception = s.reception := rfl
@[simp] theorem State.becomeStopped_timer (s : State) : (s.becomeStopped).timer = LineTimer.off := rfl
@[simp] theorem State.becomeStopped_receiver (s : State) : (s.becomeStopped).receiver = s.receiver := rfl
@[simp] theorem State.becomeStopped_strayCharacters (s : State) :
    (s.becomeStopped).strayCharacters = s.strayCharacters := rfl
@[simp] theorem State.becomeStopped_conflicts (s : State) : (s.becomeStopped).conflicts = s.conflicts := rfl
@[simp] theorem State.becomeStopped_breaks (s : State) : (s.becomeStopped).breaks = s.breaks := rfl
@[simp] theorem State.becomeStopped_lineConfig (s : State) : (s.becomeStopped).lineConfig = s.lineConfig := rfl
@[simp] theorem State.becomeStopped_limits (s : State) : (s.becomeStopped).limits = s.limits := rfl
@[simp] theorem State.becomeStopped_owners (s : State) : (s.becomeStopped).owners = s.owners := rfl
@[simp] theorem State.becomeStopped_freeList (s : State) : (s.becomeStopped).freeList = s.freeList := rfl
@[simp] theorem State.becomeStopped_memory (s : State) : (s.becomeStopped).memory = s.memory := rfl
@[simp] theorem State.becomeStopped_results (s : State) : (s.becomeStopped).results = s.results := rfl
@[simp] theorem State.becomeStopped_reserved (s : State) : (s.becomeStopped).reserved = s.reserved := rfl
@[simp] theorem State.becomeStopped_timeCounter (s : State) : (s.becomeStopped).timeCounter = s.timeCounter := rfl
@[simp] theorem State.becomeStopped_prescaler10 (s : State) : (s.becomeStopped).prescaler10 = s.prescaler10 := rfl
@[simp] theorem State.becomeStopped_prescaler100 (s : State) : (s.becomeStopped).prescaler100 = s.prescaler100 := rfl
@[simp] theorem State.becomeStopped_tick10Given (s : State) : (s.becomeStopped).tick10Given = s.tick10Given := rfl
@[simp] theorem State.becomeStopped_tick100Given (s : State) : (s.becomeStopped).tick100Given = s.tick100Given := rfl
@[simp] theorem State.becomeStopped_pending (s : State) : (s.becomeStopped).pending = s.pending := rfl

/-! ### State.clearBuffer -/

@[simp] theorem State.clearBuffer_resetHeld (s : State) (buffer : Nat) :
    (s.clearBuffer buffer).resetHeld = s.resetHeld := rfl
@[simp] theorem State.clearBuffer_de (s : State) (buffer : Nat) : (s.clearBuffer buffer).de = s.de := rfl
@[simp] theorem State.clearBuffer_port (s : State) (buffer : Nat) : (s.clearBuffer buffer).port = s.port := rfl
@[simp] theorem State.clearBuffer_readData (s : State) (buffer : Nat) :
    (s.clearBuffer buffer).readData = s.readData := rfl
@[simp] theorem State.clearBuffer_args (s : State) (buffer : Nat) : (s.clearBuffer buffer).args = s.args := rfl
@[simp] theorem State.clearBuffer_latch (s : State) (buffer : Nat) : (s.clearBuffer buffer).latch = s.latch := rfl
@[simp] theorem State.clearBuffer_commandCode (s : State) (buffer : Nat) :
    (s.clearBuffer buffer).commandCode = s.commandCode := rfl
@[simp] theorem State.clearBuffer_unit (s : State) (buffer : Nat) : (s.clearBuffer buffer).unit = s.unit := rfl
@[simp] theorem State.clearBuffer_cmdResult (s : State) (buffer : Nat) :
    (s.clearBuffer buffer).cmdResult = s.cmdResult := rfl
@[simp] theorem State.clearBuffer_replies (s : State) (buffer : Nat) :
    (s.clearBuffer buffer).replies = s.replies := rfl
@[simp] theorem State.clearBuffer_bufSelect (s : State) (buffer : Nat) :
    (s.clearBuffer buffer).bufSelect = s.bufSelect := rfl
@[simp] theorem State.clearBuffer_bufOffset (s : State) (buffer : Nat) :
    (s.clearBuffer buffer).bufOffset = s.bufOffset := rfl
@[simp] theorem State.clearBuffer_faultReg (s : State) (buffer : Nat) :
    (s.clearBuffer buffer).faultReg = s.faultReg := rfl
@[simp] theorem State.clearBuffer_timeSnapshot (s : State) (buffer : Nat) :
    (s.clearBuffer buffer).timeSnapshot = s.timeSnapshot := rfl
@[simp] theorem State.clearBuffer_taken (s : State) (buffer : Nat) : (s.clearBuffer buffer).taken = s.taken := rfl
@[simp] theorem State.clearBuffer_events (s : State) (buffer : Nat) : (s.clearBuffer buffer).events = s.events := rfl
@[simp] theorem State.clearBuffer_enableA (s : State) (buffer : Nat) :
    (s.clearBuffer buffer).enableA = s.enableA := rfl
@[simp] theorem State.clearBuffer_enableB (s : State) (buffer : Nat) :
    (s.clearBuffer buffer).enableB = s.enableB := rfl
@[simp] theorem State.clearBuffer_stations (s : State) (buffer : Nat) :
    (s.clearBuffer buffer).stations = s.stations := rfl
@[simp] theorem State.clearBuffer_queue (s : State) (buffer : Nat) : (s.clearBuffer buffer).queue = s.queue := rfl
@[simp] theorem State.clearBuffer_ticketCounter (s : State) (buffer : Nat) :
    (s.clearBuffer buffer).ticketCounter = s.ticketCounter := rfl
@[simp] theorem State.clearBuffer_consecutive (s : State) (buffer : Nat) :
    (s.clearBuffer buffer).consecutive = s.consecutive := rfl
@[simp] theorem State.clearBuffer_stallActive (s : State) (buffer : Nat) :
    (s.clearBuffer buffer).stallActive = s.stallActive := rfl
@[simp] theorem State.clearBuffer_stallReported (s : State) (buffer : Nat) :
    (s.clearBuffer buffer).stallReported = s.stallReported := rfl
@[simp] theorem State.clearBuffer_pollPointer (s : State) (buffer : Nat) :
    (s.clearBuffer buffer).pollPointer = s.pollPointer := rfl
@[simp] theorem State.clearBuffer_mode (s : State) (buffer : Nat) : (s.clearBuffer buffer).mode = s.mode := rfl
@[simp] theorem State.clearBuffer_phase (s : State) (buffer : Nat) : (s.clearBuffer buffer).phase = s.phase := rfl
@[simp] theorem State.clearBuffer_context (s : State) (buffer : Nat) :
    (s.clearBuffer buffer).context = s.context := rfl
@[simp] theorem State.clearBuffer_tx (s : State) (buffer : Nat) : (s.clearBuffer buffer).tx = s.tx := rfl
@[simp] theorem State.clearBuffer_reception (s : State) (buffer : Nat) :
    (s.clearBuffer buffer).reception = s.reception := rfl
@[simp] theorem State.clearBuffer_timer (s : State) (buffer : Nat) : (s.clearBuffer buffer).timer = s.timer := rfl
@[simp] theorem State.clearBuffer_receiver (s : State) (buffer : Nat) :
    (s.clearBuffer buffer).receiver = s.receiver := rfl
@[simp] theorem State.clearBuffer_strayCharacters (s : State) (buffer : Nat) :
    (s.clearBuffer buffer).strayCharacters = s.strayCharacters := rfl
@[simp] theorem State.clearBuffer_conflicts (s : State) (buffer : Nat) :
    (s.clearBuffer buffer).conflicts = s.conflicts := rfl
@[simp] theorem State.clearBuffer_breaks (s : State) (buffer : Nat) : (s.clearBuffer buffer).breaks = s.breaks := rfl
@[simp] theorem State.clearBuffer_lineConfig (s : State) (buffer : Nat) :
    (s.clearBuffer buffer).lineConfig = s.lineConfig := rfl
@[simp] theorem State.clearBuffer_limits (s : State) (buffer : Nat) : (s.clearBuffer buffer).limits = s.limits := rfl
@[simp] theorem State.clearBuffer_owners (s : State) (buffer : Nat) : (s.clearBuffer buffer).owners = s.owners := rfl
@[simp] theorem State.clearBuffer_freeList (s : State) (buffer : Nat) :
    (s.clearBuffer buffer).freeList = s.freeList := rfl
@[simp] theorem State.clearBuffer_memory (s : State) (buffer : Nat) :
    (s.clearBuffer buffer).memory = s.memory.clear (bufferAddress buffer 0) 32 := rfl
@[simp] theorem State.clearBuffer_results (s : State) (buffer : Nat) :
    (s.clearBuffer buffer).results = s.results := rfl
@[simp] theorem State.clearBuffer_reserved (s : State) (buffer : Nat) :
    (s.clearBuffer buffer).reserved = s.reserved := rfl
@[simp] theorem State.clearBuffer_timeCounter (s : State) (buffer : Nat) :
    (s.clearBuffer buffer).timeCounter = s.timeCounter := rfl
@[simp] theorem State.clearBuffer_prescaler10 (s : State) (buffer : Nat) :
    (s.clearBuffer buffer).prescaler10 = s.prescaler10 := rfl
@[simp] theorem State.clearBuffer_prescaler100 (s : State) (buffer : Nat) :
    (s.clearBuffer buffer).prescaler100 = s.prescaler100 := rfl
@[simp] theorem State.clearBuffer_tick10Given (s : State) (buffer : Nat) :
    (s.clearBuffer buffer).tick10Given = s.tick10Given := rfl
@[simp] theorem State.clearBuffer_tick100Given (s : State) (buffer : Nat) :
    (s.clearBuffer buffer).tick100Given = s.tick100Given := rfl
@[simp] theorem State.clearBuffer_pending (s : State) (buffer : Nat) :
    (s.clearBuffer buffer).pending = s.pending := rfl

/-! ### State.post -/

@[simp] theorem State.post_resetHeld (s : State) (r : ResultRecord) : (s.post r).resetHeld = s.resetHeld := rfl
@[simp] theorem State.post_de (s : State) (r : ResultRecord) : (s.post r).de = s.de := rfl
@[simp] theorem State.post_port (s : State) (r : ResultRecord) : (s.post r).port = s.port := rfl
@[simp] theorem State.post_readData (s : State) (r : ResultRecord) : (s.post r).readData = s.readData := rfl
@[simp] theorem State.post_args (s : State) (r : ResultRecord) : (s.post r).args = s.args := rfl
@[simp] theorem State.post_latch (s : State) (r : ResultRecord) : (s.post r).latch = s.latch := rfl
@[simp] theorem State.post_commandCode (s : State) (r : ResultRecord) : (s.post r).commandCode = s.commandCode := rfl
@[simp] theorem State.post_unit (s : State) (r : ResultRecord) : (s.post r).unit = s.unit := rfl
@[simp] theorem State.post_cmdResult (s : State) (r : ResultRecord) : (s.post r).cmdResult = s.cmdResult := rfl
@[simp] theorem State.post_replies (s : State) (r : ResultRecord) : (s.post r).replies = s.replies := rfl
@[simp] theorem State.post_bufSelect (s : State) (r : ResultRecord) : (s.post r).bufSelect = s.bufSelect := rfl
@[simp] theorem State.post_bufOffset (s : State) (r : ResultRecord) : (s.post r).bufOffset = s.bufOffset := rfl
@[simp] theorem State.post_faultReg (s : State) (r : ResultRecord) : (s.post r).faultReg = s.faultReg := rfl
@[simp] theorem State.post_timeSnapshot (s : State) (r : ResultRecord) :
    (s.post r).timeSnapshot = s.timeSnapshot := rfl
@[simp] theorem State.post_taken (s : State) (r : ResultRecord) : (s.post r).taken = s.taken := rfl
@[simp] theorem State.post_enableA (s : State) (r : ResultRecord) : (s.post r).enableA = s.enableA := rfl
@[simp] theorem State.post_enableB (s : State) (r : ResultRecord) : (s.post r).enableB = s.enableB := rfl
@[simp] theorem State.post_stations (s : State) (r : ResultRecord) : (s.post r).stations = s.stations := rfl
@[simp] theorem State.post_queue (s : State) (r : ResultRecord) : (s.post r).queue = s.queue := rfl
@[simp] theorem State.post_ticketCounter (s : State) (r : ResultRecord) :
    (s.post r).ticketCounter = s.ticketCounter := rfl
@[simp] theorem State.post_consecutive (s : State) (r : ResultRecord) : (s.post r).consecutive = s.consecutive := rfl
@[simp] theorem State.post_stallActive (s : State) (r : ResultRecord) : (s.post r).stallActive = s.stallActive := rfl
@[simp] theorem State.post_stallReported (s : State) (r : ResultRecord) :
    (s.post r).stallReported = s.stallReported := rfl
@[simp] theorem State.post_pollPointer (s : State) (r : ResultRecord) : (s.post r).pollPointer = s.pollPointer := rfl
@[simp] theorem State.post_mode (s : State) (r : ResultRecord) : (s.post r).mode = s.mode := rfl
@[simp] theorem State.post_phase (s : State) (r : ResultRecord) : (s.post r).phase = s.phase := rfl
@[simp] theorem State.post_context (s : State) (r : ResultRecord) : (s.post r).context = s.context := rfl
@[simp] theorem State.post_tx (s : State) (r : ResultRecord) : (s.post r).tx = s.tx := rfl
@[simp] theorem State.post_reception (s : State) (r : ResultRecord) : (s.post r).reception = s.reception := rfl
@[simp] theorem State.post_timer (s : State) (r : ResultRecord) : (s.post r).timer = s.timer := rfl
@[simp] theorem State.post_receiver (s : State) (r : ResultRecord) : (s.post r).receiver = s.receiver := rfl
@[simp] theorem State.post_strayCharacters (s : State) (r : ResultRecord) :
    (s.post r).strayCharacters = s.strayCharacters := rfl
@[simp] theorem State.post_conflicts (s : State) (r : ResultRecord) : (s.post r).conflicts = s.conflicts := rfl
@[simp] theorem State.post_breaks (s : State) (r : ResultRecord) : (s.post r).breaks = s.breaks := rfl
@[simp] theorem State.post_lineConfig (s : State) (r : ResultRecord) : (s.post r).lineConfig = s.lineConfig := rfl
@[simp] theorem State.post_limits (s : State) (r : ResultRecord) : (s.post r).limits = s.limits := rfl
@[simp] theorem State.post_owners (s : State) (r : ResultRecord) : (s.post r).owners = s.owners := rfl
@[simp] theorem State.post_freeList (s : State) (r : ResultRecord) : (s.post r).freeList = s.freeList := rfl
@[simp] theorem State.post_memory (s : State) (r : ResultRecord) : (s.post r).memory = s.memory := rfl
@[simp] theorem State.post_results (s : State) (r : ResultRecord) :
    (s.post r).results = s.results ++ [{ r with stamp := s.timeCounter }] := rfl
@[simp] theorem State.post_reserved (s : State) (r : ResultRecord) : (s.post r).reserved = s.reserved := rfl
@[simp] theorem State.post_timeCounter (s : State) (r : ResultRecord) : (s.post r).timeCounter = s.timeCounter := rfl
@[simp] theorem State.post_prescaler10 (s : State) (r : ResultRecord) : (s.post r).prescaler10 = s.prescaler10 := rfl
@[simp] theorem State.post_prescaler100 (s : State) (r : ResultRecord) :
    (s.post r).prescaler100 = s.prescaler100 := rfl
@[simp] theorem State.post_tick10Given (s : State) (r : ResultRecord) : (s.post r).tick10Given = s.tick10Given := rfl
@[simp] theorem State.post_tick100Given (s : State) (r : ResultRecord) :
    (s.post r).tick100Given = s.tick100Given := rfl
@[simp] theorem State.post_pending (s : State) (r : ResultRecord) : (s.post r).pending = s.pending := rfl

/-! ### State.removeRequest -/

@[simp] theorem State.removeRequest_resetHeld (s : State) (ticket : Nat) :
    (s.removeRequest ticket).resetHeld = s.resetHeld := rfl
@[simp] theorem State.removeRequest_de (s : State) (ticket : Nat) : (s.removeRequest ticket).de = s.de := rfl
@[simp] theorem State.removeRequest_port (s : State) (ticket : Nat) : (s.removeRequest ticket).port = s.port := rfl
@[simp] theorem State.removeRequest_readData (s : State) (ticket : Nat) :
    (s.removeRequest ticket).readData = s.readData := rfl
@[simp] theorem State.removeRequest_args (s : State) (ticket : Nat) : (s.removeRequest ticket).args = s.args := rfl
@[simp] theorem State.removeRequest_latch (s : State) (ticket : Nat) : (s.removeRequest ticket).latch = s.latch := rfl
@[simp] theorem State.removeRequest_commandCode (s : State) (ticket : Nat) :
    (s.removeRequest ticket).commandCode = s.commandCode := rfl
@[simp] theorem State.removeRequest_unit (s : State) (ticket : Nat) : (s.removeRequest ticket).unit = s.unit := rfl
@[simp] theorem State.removeRequest_cmdResult (s : State) (ticket : Nat) :
    (s.removeRequest ticket).cmdResult = s.cmdResult := rfl
@[simp] theorem State.removeRequest_replies (s : State) (ticket : Nat) :
    (s.removeRequest ticket).replies = s.replies := rfl
@[simp] theorem State.removeRequest_bufSelect (s : State) (ticket : Nat) :
    (s.removeRequest ticket).bufSelect = s.bufSelect := rfl
@[simp] theorem State.removeRequest_bufOffset (s : State) (ticket : Nat) :
    (s.removeRequest ticket).bufOffset = s.bufOffset := rfl
@[simp] theorem State.removeRequest_faultReg (s : State) (ticket : Nat) :
    (s.removeRequest ticket).faultReg = s.faultReg := rfl
@[simp] theorem State.removeRequest_timeSnapshot (s : State) (ticket : Nat) :
    (s.removeRequest ticket).timeSnapshot = s.timeSnapshot := rfl
@[simp] theorem State.removeRequest_taken (s : State) (ticket : Nat) : (s.removeRequest ticket).taken = s.taken := rfl
@[simp] theorem State.removeRequest_enableA (s : State) (ticket : Nat) :
    (s.removeRequest ticket).enableA = s.enableA := rfl
@[simp] theorem State.removeRequest_enableB (s : State) (ticket : Nat) :
    (s.removeRequest ticket).enableB = s.enableB := rfl
@[simp] theorem State.removeRequest_stations (s : State) (ticket : Nat) :
    (s.removeRequest ticket).stations = s.stations := rfl
@[simp] theorem State.removeRequest_queue (s : State) (ticket : Nat) :
    (s.removeRequest ticket).queue = s.queue.eraseP (·.ticket == ticket) := rfl
@[simp] theorem State.removeRequest_ticketCounter (s : State) (ticket : Nat) :
    (s.removeRequest ticket).ticketCounter = s.ticketCounter := rfl
@[simp] theorem State.removeRequest_consecutive (s : State) (ticket : Nat) :
    (s.removeRequest ticket).consecutive = s.consecutive := rfl
@[simp] theorem State.removeRequest_stallActive (s : State) (ticket : Nat) :
    (s.removeRequest ticket).stallActive = s.stallActive := rfl
@[simp] theorem State.removeRequest_stallReported (s : State) (ticket : Nat) :
    (s.removeRequest ticket).stallReported = s.stallReported := rfl
@[simp] theorem State.removeRequest_pollPointer (s : State) (ticket : Nat) :
    (s.removeRequest ticket).pollPointer = s.pollPointer := rfl
@[simp] theorem State.removeRequest_mode (s : State) (ticket : Nat) : (s.removeRequest ticket).mode = s.mode := rfl
@[simp] theorem State.removeRequest_phase (s : State) (ticket : Nat) : (s.removeRequest ticket).phase = s.phase := rfl
@[simp] theorem State.removeRequest_context (s : State) (ticket : Nat) :
    (s.removeRequest ticket).context = s.context := rfl
@[simp] theorem State.removeRequest_tx (s : State) (ticket : Nat) : (s.removeRequest ticket).tx = s.tx := rfl
@[simp] theorem State.removeRequest_reception (s : State) (ticket : Nat) :
    (s.removeRequest ticket).reception = s.reception := rfl
@[simp] theorem State.removeRequest_timer (s : State) (ticket : Nat) : (s.removeRequest ticket).timer = s.timer := rfl
@[simp] theorem State.removeRequest_receiver (s : State) (ticket : Nat) :
    (s.removeRequest ticket).receiver = s.receiver := rfl
@[simp] theorem State.removeRequest_strayCharacters (s : State) (ticket : Nat) :
    (s.removeRequest ticket).strayCharacters = s.strayCharacters := rfl
@[simp] theorem State.removeRequest_conflicts (s : State) (ticket : Nat) :
    (s.removeRequest ticket).conflicts = s.conflicts := rfl
@[simp] theorem State.removeRequest_breaks (s : State) (ticket : Nat) :
    (s.removeRequest ticket).breaks = s.breaks := rfl
@[simp] theorem State.removeRequest_lineConfig (s : State) (ticket : Nat) :
    (s.removeRequest ticket).lineConfig = s.lineConfig := rfl
@[simp] theorem State.removeRequest_limits (s : State) (ticket : Nat) :
    (s.removeRequest ticket).limits = s.limits := rfl
@[simp] theorem State.removeRequest_owners (s : State) (ticket : Nat) :
    (s.removeRequest ticket).owners = s.owners := rfl
@[simp] theorem State.removeRequest_freeList (s : State) (ticket : Nat) :
    (s.removeRequest ticket).freeList = s.freeList := rfl
@[simp] theorem State.removeRequest_memory (s : State) (ticket : Nat) :
    (s.removeRequest ticket).memory = s.memory := rfl
@[simp] theorem State.removeRequest_results (s : State) (ticket : Nat) :
    (s.removeRequest ticket).results = s.results := rfl
@[simp] theorem State.removeRequest_reserved (s : State) (ticket : Nat) :
    (s.removeRequest ticket).reserved = s.reserved := rfl
@[simp] theorem State.removeRequest_timeCounter (s : State) (ticket : Nat) :
    (s.removeRequest ticket).timeCounter = s.timeCounter := rfl
@[simp] theorem State.removeRequest_prescaler10 (s : State) (ticket : Nat) :
    (s.removeRequest ticket).prescaler10 = s.prescaler10 := rfl
@[simp] theorem State.removeRequest_prescaler100 (s : State) (ticket : Nat) :
    (s.removeRequest ticket).prescaler100 = s.prescaler100 := rfl
@[simp] theorem State.removeRequest_tick10Given (s : State) (ticket : Nat) :
    (s.removeRequest ticket).tick10Given = s.tick10Given := rfl
@[simp] theorem State.removeRequest_tick100Given (s : State) (ticket : Nat) :
    (s.removeRequest ticket).tick100Given = s.tick100Given := rfl
@[simp] theorem State.removeRequest_pending (s : State) (ticket : Nat) :
    (s.removeRequest ticket).pending = s.pending := rfl

/-! ### State.awaitCharacter -/

@[simp] theorem State.awaitCharacter_resetHeld (s : State) : (s.awaitCharacter).resetHeld = s.resetHeld := rfl
@[simp] theorem State.awaitCharacter_de (s : State) : (s.awaitCharacter).de = s.de := rfl
@[simp] theorem State.awaitCharacter_port (s : State) : (s.awaitCharacter).port = s.port := rfl
@[simp] theorem State.awaitCharacter_readData (s : State) : (s.awaitCharacter).readData = s.readData := rfl
@[simp] theorem State.awaitCharacter_args (s : State) : (s.awaitCharacter).args = s.args := rfl
@[simp] theorem State.awaitCharacter_latch (s : State) : (s.awaitCharacter).latch = s.latch := rfl
@[simp] theorem State.awaitCharacter_commandCode (s : State) : (s.awaitCharacter).commandCode = s.commandCode := rfl
@[simp] theorem State.awaitCharacter_unit (s : State) : (s.awaitCharacter).unit = s.unit := rfl
@[simp] theorem State.awaitCharacter_cmdResult (s : State) : (s.awaitCharacter).cmdResult = s.cmdResult := rfl
@[simp] theorem State.awaitCharacter_replies (s : State) : (s.awaitCharacter).replies = s.replies := rfl
@[simp] theorem State.awaitCharacter_bufSelect (s : State) : (s.awaitCharacter).bufSelect = s.bufSelect := rfl
@[simp] theorem State.awaitCharacter_bufOffset (s : State) : (s.awaitCharacter).bufOffset = s.bufOffset := rfl
@[simp] theorem State.awaitCharacter_faultReg (s : State) : (s.awaitCharacter).faultReg = s.faultReg := rfl
@[simp] theorem State.awaitCharacter_timeSnapshot (s : State) : (s.awaitCharacter).timeSnapshot = s.timeSnapshot := rfl
@[simp] theorem State.awaitCharacter_taken (s : State) : (s.awaitCharacter).taken = s.taken := rfl
@[simp] theorem State.awaitCharacter_events (s : State) : (s.awaitCharacter).events = s.events := rfl
@[simp] theorem State.awaitCharacter_enableA (s : State) : (s.awaitCharacter).enableA = s.enableA := rfl
@[simp] theorem State.awaitCharacter_enableB (s : State) : (s.awaitCharacter).enableB = s.enableB := rfl
@[simp] theorem State.awaitCharacter_stations (s : State) : (s.awaitCharacter).stations = s.stations := rfl
@[simp] theorem State.awaitCharacter_queue (s : State) : (s.awaitCharacter).queue = s.queue := rfl
@[simp] theorem State.awaitCharacter_ticketCounter (s : State) :
    (s.awaitCharacter).ticketCounter = s.ticketCounter := rfl
@[simp] theorem State.awaitCharacter_consecutive (s : State) : (s.awaitCharacter).consecutive = s.consecutive := rfl
@[simp] theorem State.awaitCharacter_stallActive (s : State) : (s.awaitCharacter).stallActive = s.stallActive := rfl
@[simp] theorem State.awaitCharacter_stallReported (s : State) :
    (s.awaitCharacter).stallReported = s.stallReported := rfl
@[simp] theorem State.awaitCharacter_pollPointer (s : State) : (s.awaitCharacter).pollPointer = s.pollPointer := rfl
@[simp] theorem State.awaitCharacter_mode (s : State) : (s.awaitCharacter).mode = s.mode := rfl
@[simp] theorem State.awaitCharacter_phase (s : State) : (s.awaitCharacter).phase = s.phase := rfl
@[simp] theorem State.awaitCharacter_context (s : State) : (s.awaitCharacter).context = s.context := rfl
@[simp] theorem State.awaitCharacter_tx (s : State) : (s.awaitCharacter).tx = s.tx := rfl
@[simp] theorem State.awaitCharacter_reception (s : State) : (s.awaitCharacter).reception = s.reception := rfl
@[simp] theorem State.awaitCharacter_timer (s : State) :
    (s.awaitCharacter).timer = { kind := .characterGap, bits := s.lineConfig.characterGap * s.characterBits } := rfl
@[simp] theorem State.awaitCharacter_receiver (s : State) : (s.awaitCharacter).receiver = s.receiver := rfl
@[simp] theorem State.awaitCharacter_strayCharacters (s : State) :
    (s.awaitCharacter).strayCharacters = s.strayCharacters := rfl
@[simp] theorem State.awaitCharacter_conflicts (s : State) : (s.awaitCharacter).conflicts = s.conflicts := rfl
@[simp] theorem State.awaitCharacter_breaks (s : State) : (s.awaitCharacter).breaks = s.breaks := rfl
@[simp] theorem State.awaitCharacter_lineConfig (s : State) : (s.awaitCharacter).lineConfig = s.lineConfig := rfl
@[simp] theorem State.awaitCharacter_limits (s : State) : (s.awaitCharacter).limits = s.limits := rfl
@[simp] theorem State.awaitCharacter_owners (s : State) : (s.awaitCharacter).owners = s.owners := rfl
@[simp] theorem State.awaitCharacter_freeList (s : State) : (s.awaitCharacter).freeList = s.freeList := rfl
@[simp] theorem State.awaitCharacter_memory (s : State) : (s.awaitCharacter).memory = s.memory := rfl
@[simp] theorem State.awaitCharacter_results (s : State) : (s.awaitCharacter).results = s.results := rfl
@[simp] theorem State.awaitCharacter_reserved (s : State) : (s.awaitCharacter).reserved = s.reserved := rfl
@[simp] theorem State.awaitCharacter_timeCounter (s : State) : (s.awaitCharacter).timeCounter = s.timeCounter := rfl
@[simp] theorem State.awaitCharacter_prescaler10 (s : State) : (s.awaitCharacter).prescaler10 = s.prescaler10 := rfl
@[simp] theorem State.awaitCharacter_prescaler100 (s : State) : (s.awaitCharacter).prescaler100 = s.prescaler100 := rfl
@[simp] theorem State.awaitCharacter_tick10Given (s : State) : (s.awaitCharacter).tick10Given = s.tick10Given := rfl
@[simp] theorem State.awaitCharacter_tick100Given (s : State) : (s.awaitCharacter).tick100Given = s.tick100Given := rfl
@[simp] theorem State.awaitCharacter_pending (s : State) : (s.awaitCharacter).pending = s.pending := rfl

/-! ### State.countStray -/

@[simp] theorem State.countStray_resetHeld (s : State) : (s.countStray).resetHeld = s.resetHeld := rfl
@[simp] theorem State.countStray_de (s : State) : (s.countStray).de = s.de := rfl
@[simp] theorem State.countStray_port (s : State) : (s.countStray).port = s.port := rfl
@[simp] theorem State.countStray_readData (s : State) : (s.countStray).readData = s.readData := rfl
@[simp] theorem State.countStray_args (s : State) : (s.countStray).args = s.args := rfl
@[simp] theorem State.countStray_latch (s : State) : (s.countStray).latch = s.latch := rfl
@[simp] theorem State.countStray_commandCode (s : State) : (s.countStray).commandCode = s.commandCode := rfl
@[simp] theorem State.countStray_unit (s : State) : (s.countStray).unit = s.unit := rfl
@[simp] theorem State.countStray_cmdResult (s : State) : (s.countStray).cmdResult = s.cmdResult := rfl
@[simp] theorem State.countStray_replies (s : State) : (s.countStray).replies = s.replies := rfl
@[simp] theorem State.countStray_bufSelect (s : State) : (s.countStray).bufSelect = s.bufSelect := rfl
@[simp] theorem State.countStray_bufOffset (s : State) : (s.countStray).bufOffset = s.bufOffset := rfl
@[simp] theorem State.countStray_faultReg (s : State) : (s.countStray).faultReg = s.faultReg := rfl
@[simp] theorem State.countStray_timeSnapshot (s : State) : (s.countStray).timeSnapshot = s.timeSnapshot := rfl
@[simp] theorem State.countStray_taken (s : State) : (s.countStray).taken = s.taken := rfl
@[simp] theorem State.countStray_events (s : State) : (s.countStray).events = s.events := rfl
@[simp] theorem State.countStray_enableA (s : State) : (s.countStray).enableA = s.enableA := rfl
@[simp] theorem State.countStray_enableB (s : State) : (s.countStray).enableB = s.enableB := rfl
@[simp] theorem State.countStray_stations (s : State) : (s.countStray).stations = s.stations := rfl
@[simp] theorem State.countStray_queue (s : State) : (s.countStray).queue = s.queue := rfl
@[simp] theorem State.countStray_ticketCounter (s : State) : (s.countStray).ticketCounter = s.ticketCounter := rfl
@[simp] theorem State.countStray_consecutive (s : State) : (s.countStray).consecutive = s.consecutive := rfl
@[simp] theorem State.countStray_stallActive (s : State) : (s.countStray).stallActive = s.stallActive := rfl
@[simp] theorem State.countStray_stallReported (s : State) : (s.countStray).stallReported = s.stallReported := rfl
@[simp] theorem State.countStray_pollPointer (s : State) : (s.countStray).pollPointer = s.pollPointer := rfl
@[simp] theorem State.countStray_mode (s : State) : (s.countStray).mode = s.mode := rfl
@[simp] theorem State.countStray_phase (s : State) : (s.countStray).phase = s.phase := rfl
@[simp] theorem State.countStray_context (s : State) : (s.countStray).context = s.context := rfl
@[simp] theorem State.countStray_tx (s : State) : (s.countStray).tx = s.tx := rfl
@[simp] theorem State.countStray_reception (s : State) : (s.countStray).reception = s.reception := rfl
@[simp] theorem State.countStray_timer (s : State) : (s.countStray).timer = s.timer := rfl
@[simp] theorem State.countStray_receiver (s : State) : (s.countStray).receiver = s.receiver := rfl
@[simp] theorem State.countStray_strayCharacters (s : State) :
    (s.countStray).strayCharacters = satInc Config.counterCap s.strayCharacters := rfl
@[simp] theorem State.countStray_conflicts (s : State) : (s.countStray).conflicts = s.conflicts := rfl
@[simp] theorem State.countStray_breaks (s : State) : (s.countStray).breaks = s.breaks := rfl
@[simp] theorem State.countStray_lineConfig (s : State) : (s.countStray).lineConfig = s.lineConfig := rfl
@[simp] theorem State.countStray_limits (s : State) : (s.countStray).limits = s.limits := rfl
@[simp] theorem State.countStray_owners (s : State) : (s.countStray).owners = s.owners := rfl
@[simp] theorem State.countStray_freeList (s : State) : (s.countStray).freeList = s.freeList := rfl
@[simp] theorem State.countStray_memory (s : State) : (s.countStray).memory = s.memory := rfl
@[simp] theorem State.countStray_results (s : State) : (s.countStray).results = s.results := rfl
@[simp] theorem State.countStray_reserved (s : State) : (s.countStray).reserved = s.reserved := rfl
@[simp] theorem State.countStray_timeCounter (s : State) : (s.countStray).timeCounter = s.timeCounter := rfl
@[simp] theorem State.countStray_prescaler10 (s : State) : (s.countStray).prescaler10 = s.prescaler10 := rfl
@[simp] theorem State.countStray_prescaler100 (s : State) : (s.countStray).prescaler100 = s.prescaler100 := rfl
@[simp] theorem State.countStray_tick10Given (s : State) : (s.countStray).tick10Given = s.tick10Given := rfl
@[simp] theorem State.countStray_tick100Given (s : State) : (s.countStray).tick100Given = s.tick100Given := rfl
@[simp] theorem State.countStray_pending (s : State) : (s.countStray).pending = s.pending := rfl

/-! ### State.countConflict -/

@[simp] theorem State.countConflict_resetHeld (s : State) : (s.countConflict).resetHeld = s.resetHeld := rfl
@[simp] theorem State.countConflict_de (s : State) : (s.countConflict).de = s.de := rfl
@[simp] theorem State.countConflict_port (s : State) : (s.countConflict).port = s.port := rfl
@[simp] theorem State.countConflict_readData (s : State) : (s.countConflict).readData = s.readData := rfl
@[simp] theorem State.countConflict_args (s : State) : (s.countConflict).args = s.args := rfl
@[simp] theorem State.countConflict_latch (s : State) : (s.countConflict).latch = s.latch := rfl
@[simp] theorem State.countConflict_commandCode (s : State) : (s.countConflict).commandCode = s.commandCode := rfl
@[simp] theorem State.countConflict_unit (s : State) : (s.countConflict).unit = s.unit := rfl
@[simp] theorem State.countConflict_cmdResult (s : State) : (s.countConflict).cmdResult = s.cmdResult := rfl
@[simp] theorem State.countConflict_replies (s : State) : (s.countConflict).replies = s.replies := rfl
@[simp] theorem State.countConflict_bufSelect (s : State) : (s.countConflict).bufSelect = s.bufSelect := rfl
@[simp] theorem State.countConflict_bufOffset (s : State) : (s.countConflict).bufOffset = s.bufOffset := rfl
@[simp] theorem State.countConflict_faultReg (s : State) : (s.countConflict).faultReg = s.faultReg := rfl
@[simp] theorem State.countConflict_timeSnapshot (s : State) : (s.countConflict).timeSnapshot = s.timeSnapshot := rfl
@[simp] theorem State.countConflict_taken (s : State) : (s.countConflict).taken = s.taken := rfl
@[simp] theorem State.countConflict_events (s : State) : (s.countConflict).events = s.events.raise .conflict := rfl
@[simp] theorem State.countConflict_enableA (s : State) : (s.countConflict).enableA = s.enableA := rfl
@[simp] theorem State.countConflict_enableB (s : State) : (s.countConflict).enableB = s.enableB := rfl
@[simp] theorem State.countConflict_stations (s : State) : (s.countConflict).stations = s.stations := rfl
@[simp] theorem State.countConflict_queue (s : State) : (s.countConflict).queue = s.queue := rfl
@[simp] theorem State.countConflict_ticketCounter (s : State) :
    (s.countConflict).ticketCounter = s.ticketCounter := rfl
@[simp] theorem State.countConflict_consecutive (s : State) : (s.countConflict).consecutive = s.consecutive := rfl
@[simp] theorem State.countConflict_stallActive (s : State) : (s.countConflict).stallActive = s.stallActive := rfl
@[simp] theorem State.countConflict_stallReported (s : State) :
    (s.countConflict).stallReported = s.stallReported := rfl
@[simp] theorem State.countConflict_pollPointer (s : State) : (s.countConflict).pollPointer = s.pollPointer := rfl
@[simp] theorem State.countConflict_mode (s : State) : (s.countConflict).mode = s.mode := rfl
@[simp] theorem State.countConflict_phase (s : State) : (s.countConflict).phase = s.phase := rfl
@[simp] theorem State.countConflict_context (s : State) : (s.countConflict).context = s.context := rfl
@[simp] theorem State.countConflict_tx (s : State) : (s.countConflict).tx = s.tx := rfl
@[simp] theorem State.countConflict_reception (s : State) : (s.countConflict).reception = s.reception := rfl
@[simp] theorem State.countConflict_timer (s : State) : (s.countConflict).timer = s.timer := rfl
@[simp] theorem State.countConflict_receiver (s : State) : (s.countConflict).receiver = s.receiver := rfl
@[simp] theorem State.countConflict_strayCharacters (s : State) :
    (s.countConflict).strayCharacters = s.strayCharacters := rfl
@[simp] theorem State.countConflict_conflicts (s : State) :
    (s.countConflict).conflicts = satInc Config.lineCounterCap s.conflicts := rfl
@[simp] theorem State.countConflict_breaks (s : State) : (s.countConflict).breaks = s.breaks := rfl
@[simp] theorem State.countConflict_lineConfig (s : State) : (s.countConflict).lineConfig = s.lineConfig := rfl
@[simp] theorem State.countConflict_limits (s : State) : (s.countConflict).limits = s.limits := rfl
@[simp] theorem State.countConflict_owners (s : State) : (s.countConflict).owners = s.owners := rfl
@[simp] theorem State.countConflict_freeList (s : State) : (s.countConflict).freeList = s.freeList := rfl
@[simp] theorem State.countConflict_memory (s : State) : (s.countConflict).memory = s.memory := rfl
@[simp] theorem State.countConflict_results (s : State) : (s.countConflict).results = s.results := rfl
@[simp] theorem State.countConflict_reserved (s : State) : (s.countConflict).reserved = s.reserved := rfl
@[simp] theorem State.countConflict_timeCounter (s : State) : (s.countConflict).timeCounter = s.timeCounter := rfl
@[simp] theorem State.countConflict_prescaler10 (s : State) : (s.countConflict).prescaler10 = s.prescaler10 := rfl
@[simp] theorem State.countConflict_prescaler100 (s : State) : (s.countConflict).prescaler100 = s.prescaler100 := rfl
@[simp] theorem State.countConflict_tick10Given (s : State) : (s.countConflict).tick10Given = s.tick10Given := rfl
@[simp] theorem State.countConflict_tick100Given (s : State) : (s.countConflict).tick100Given = s.tick100Given := rfl
@[simp] theorem State.countConflict_pending (s : State) : (s.countConflict).pending = s.pending := rfl

/-! ### State.accessFault -/

@[simp] theorem State.accessFault_resetHeld (s : State) (write : Bool) :
    (s.accessFault write).resetHeld = s.resetHeld := rfl
@[simp] theorem State.accessFault_de (s : State) (write : Bool) : (s.accessFault write).de = s.de := rfl
@[simp] theorem State.accessFault_port (s : State) (write : Bool) : (s.accessFault write).port = s.port := rfl
@[simp] theorem State.accessFault_readData (s : State) (write : Bool) :
    (s.accessFault write).readData = s.readData := rfl
@[simp] theorem State.accessFault_args (s : State) (write : Bool) : (s.accessFault write).args = s.args := rfl
@[simp] theorem State.accessFault_latch (s : State) (write : Bool) : (s.accessFault write).latch = s.latch := rfl
@[simp] theorem State.accessFault_commandCode (s : State) (write : Bool) :
    (s.accessFault write).commandCode = s.commandCode := rfl
@[simp] theorem State.accessFault_unit (s : State) (write : Bool) : (s.accessFault write).unit = s.unit := rfl
@[simp] theorem State.accessFault_cmdResult (s : State) (write : Bool) :
    (s.accessFault write).cmdResult = s.cmdResult := rfl
@[simp] theorem State.accessFault_replies (s : State) (write : Bool) : (s.accessFault write).replies = s.replies := rfl
@[simp] theorem State.accessFault_bufSelect (s : State) (write : Bool) :
    (s.accessFault write).bufSelect = s.bufSelect := rfl
@[simp] theorem State.accessFault_bufOffset (s : State) (write : Bool) :
    (s.accessFault write).bufOffset = s.bufOffset := rfl
@[simp] theorem State.accessFault_faultReg (s : State) (write : Bool) :
    (s.accessFault write).faultReg = faultByte s.bufSelect write := rfl
@[simp] theorem State.accessFault_timeSnapshot (s : State) (write : Bool) :
    (s.accessFault write).timeSnapshot = s.timeSnapshot := rfl
@[simp] theorem State.accessFault_taken (s : State) (write : Bool) : (s.accessFault write).taken = s.taken := rfl
@[simp] theorem State.accessFault_events (s : State) (write : Bool) :
    (s.accessFault write).events = s.events.raise .accessFault := rfl
@[simp] theorem State.accessFault_enableA (s : State) (write : Bool) : (s.accessFault write).enableA = s.enableA := rfl
@[simp] theorem State.accessFault_enableB (s : State) (write : Bool) : (s.accessFault write).enableB = s.enableB := rfl
@[simp] theorem State.accessFault_stations (s : State) (write : Bool) :
    (s.accessFault write).stations = s.stations := rfl
@[simp] theorem State.accessFault_queue (s : State) (write : Bool) : (s.accessFault write).queue = s.queue := rfl
@[simp] theorem State.accessFault_ticketCounter (s : State) (write : Bool) :
    (s.accessFault write).ticketCounter = s.ticketCounter := rfl
@[simp] theorem State.accessFault_consecutive (s : State) (write : Bool) :
    (s.accessFault write).consecutive = s.consecutive := rfl
@[simp] theorem State.accessFault_stallActive (s : State) (write : Bool) :
    (s.accessFault write).stallActive = s.stallActive := rfl
@[simp] theorem State.accessFault_stallReported (s : State) (write : Bool) :
    (s.accessFault write).stallReported = s.stallReported := rfl
@[simp] theorem State.accessFault_pollPointer (s : State) (write : Bool) :
    (s.accessFault write).pollPointer = s.pollPointer := rfl
@[simp] theorem State.accessFault_mode (s : State) (write : Bool) : (s.accessFault write).mode = s.mode := rfl
@[simp] theorem State.accessFault_phase (s : State) (write : Bool) : (s.accessFault write).phase = s.phase := rfl
@[simp] theorem State.accessFault_context (s : State) (write : Bool) : (s.accessFault write).context = s.context := rfl
@[simp] theorem State.accessFault_tx (s : State) (write : Bool) : (s.accessFault write).tx = s.tx := rfl
@[simp] theorem State.accessFault_reception (s : State) (write : Bool) :
    (s.accessFault write).reception = s.reception := rfl
@[simp] theorem State.accessFault_timer (s : State) (write : Bool) : (s.accessFault write).timer = s.timer := rfl
@[simp] theorem State.accessFault_receiver (s : State) (write : Bool) :
    (s.accessFault write).receiver = s.receiver := rfl
@[simp] theorem State.accessFault_strayCharacters (s : State) (write : Bool) :
    (s.accessFault write).strayCharacters = s.strayCharacters := rfl
@[simp] theorem State.accessFault_conflicts (s : State) (write : Bool) :
    (s.accessFault write).conflicts = s.conflicts := rfl
@[simp] theorem State.accessFault_breaks (s : State) (write : Bool) : (s.accessFault write).breaks = s.breaks := rfl
@[simp] theorem State.accessFault_lineConfig (s : State) (write : Bool) :
    (s.accessFault write).lineConfig = s.lineConfig := rfl
@[simp] theorem State.accessFault_limits (s : State) (write : Bool) : (s.accessFault write).limits = s.limits := rfl
@[simp] theorem State.accessFault_owners (s : State) (write : Bool) : (s.accessFault write).owners = s.owners := rfl
@[simp] theorem State.accessFault_freeList (s : State) (write : Bool) :
    (s.accessFault write).freeList = s.freeList := rfl
@[simp] theorem State.accessFault_memory (s : State) (write : Bool) : (s.accessFault write).memory = s.memory := rfl
@[simp] theorem State.accessFault_results (s : State) (write : Bool) : (s.accessFault write).results = s.results := rfl
@[simp] theorem State.accessFault_reserved (s : State) (write : Bool) :
    (s.accessFault write).reserved = s.reserved := rfl
@[simp] theorem State.accessFault_timeCounter (s : State) (write : Bool) :
    (s.accessFault write).timeCounter = s.timeCounter := rfl
@[simp] theorem State.accessFault_prescaler10 (s : State) (write : Bool) :
    (s.accessFault write).prescaler10 = s.prescaler10 := rfl
@[simp] theorem State.accessFault_prescaler100 (s : State) (write : Bool) :
    (s.accessFault write).prescaler100 = s.prescaler100 := rfl
@[simp] theorem State.accessFault_tick10Given (s : State) (write : Bool) :
    (s.accessFault write).tick10Given = s.tick10Given := rfl
@[simp] theorem State.accessFault_tick100Given (s : State) (write : Bool) :
    (s.accessFault write).tick100Given = s.tick100Given := rfl
@[simp] theorem State.accessFault_pending (s : State) (write : Bool) : (s.accessFault write).pending = s.pending := rfl

/-! ### State.advanceOffset -/

@[simp] theorem State.advanceOffset_resetHeld (s : State) : (s.advanceOffset).resetHeld = s.resetHeld := rfl
@[simp] theorem State.advanceOffset_de (s : State) : (s.advanceOffset).de = s.de := rfl
@[simp] theorem State.advanceOffset_port (s : State) : (s.advanceOffset).port = s.port := rfl
@[simp] theorem State.advanceOffset_readData (s : State) : (s.advanceOffset).readData = s.readData := rfl
@[simp] theorem State.advanceOffset_args (s : State) : (s.advanceOffset).args = s.args := rfl
@[simp] theorem State.advanceOffset_latch (s : State) : (s.advanceOffset).latch = s.latch := rfl
@[simp] theorem State.advanceOffset_commandCode (s : State) : (s.advanceOffset).commandCode = s.commandCode := rfl
@[simp] theorem State.advanceOffset_unit (s : State) : (s.advanceOffset).unit = s.unit := rfl
@[simp] theorem State.advanceOffset_cmdResult (s : State) : (s.advanceOffset).cmdResult = s.cmdResult := rfl
@[simp] theorem State.advanceOffset_replies (s : State) : (s.advanceOffset).replies = s.replies := rfl
@[simp] theorem State.advanceOffset_bufSelect (s : State) : (s.advanceOffset).bufSelect = s.bufSelect := rfl
@[simp] theorem State.advanceOffset_bufOffset (s : State) : (s.advanceOffset).bufOffset = s.bufOffset + 1 := rfl
@[simp] theorem State.advanceOffset_faultReg (s : State) : (s.advanceOffset).faultReg = s.faultReg := rfl
@[simp] theorem State.advanceOffset_timeSnapshot (s : State) : (s.advanceOffset).timeSnapshot = s.timeSnapshot := rfl
@[simp] theorem State.advanceOffset_taken (s : State) : (s.advanceOffset).taken = s.taken := rfl
@[simp] theorem State.advanceOffset_events (s : State) : (s.advanceOffset).events = s.events := rfl
@[simp] theorem State.advanceOffset_enableA (s : State) : (s.advanceOffset).enableA = s.enableA := rfl
@[simp] theorem State.advanceOffset_enableB (s : State) : (s.advanceOffset).enableB = s.enableB := rfl
@[simp] theorem State.advanceOffset_stations (s : State) : (s.advanceOffset).stations = s.stations := rfl
@[simp] theorem State.advanceOffset_queue (s : State) : (s.advanceOffset).queue = s.queue := rfl
@[simp] theorem State.advanceOffset_ticketCounter (s : State) :
    (s.advanceOffset).ticketCounter = s.ticketCounter := rfl
@[simp] theorem State.advanceOffset_consecutive (s : State) : (s.advanceOffset).consecutive = s.consecutive := rfl
@[simp] theorem State.advanceOffset_stallActive (s : State) : (s.advanceOffset).stallActive = s.stallActive := rfl
@[simp] theorem State.advanceOffset_stallReported (s : State) :
    (s.advanceOffset).stallReported = s.stallReported := rfl
@[simp] theorem State.advanceOffset_pollPointer (s : State) : (s.advanceOffset).pollPointer = s.pollPointer := rfl
@[simp] theorem State.advanceOffset_mode (s : State) : (s.advanceOffset).mode = s.mode := rfl
@[simp] theorem State.advanceOffset_phase (s : State) : (s.advanceOffset).phase = s.phase := rfl
@[simp] theorem State.advanceOffset_context (s : State) : (s.advanceOffset).context = s.context := rfl
@[simp] theorem State.advanceOffset_tx (s : State) : (s.advanceOffset).tx = s.tx := rfl
@[simp] theorem State.advanceOffset_reception (s : State) : (s.advanceOffset).reception = s.reception := rfl
@[simp] theorem State.advanceOffset_timer (s : State) : (s.advanceOffset).timer = s.timer := rfl
@[simp] theorem State.advanceOffset_receiver (s : State) : (s.advanceOffset).receiver = s.receiver := rfl
@[simp] theorem State.advanceOffset_strayCharacters (s : State) :
    (s.advanceOffset).strayCharacters = s.strayCharacters := rfl
@[simp] theorem State.advanceOffset_conflicts (s : State) : (s.advanceOffset).conflicts = s.conflicts := rfl
@[simp] theorem State.advanceOffset_breaks (s : State) : (s.advanceOffset).breaks = s.breaks := rfl
@[simp] theorem State.advanceOffset_lineConfig (s : State) : (s.advanceOffset).lineConfig = s.lineConfig := rfl
@[simp] theorem State.advanceOffset_limits (s : State) : (s.advanceOffset).limits = s.limits := rfl
@[simp] theorem State.advanceOffset_owners (s : State) : (s.advanceOffset).owners = s.owners := rfl
@[simp] theorem State.advanceOffset_freeList (s : State) : (s.advanceOffset).freeList = s.freeList := rfl
@[simp] theorem State.advanceOffset_memory (s : State) : (s.advanceOffset).memory = s.memory := rfl
@[simp] theorem State.advanceOffset_results (s : State) : (s.advanceOffset).results = s.results := rfl
@[simp] theorem State.advanceOffset_reserved (s : State) : (s.advanceOffset).reserved = s.reserved := rfl
@[simp] theorem State.advanceOffset_timeCounter (s : State) : (s.advanceOffset).timeCounter = s.timeCounter := rfl
@[simp] theorem State.advanceOffset_prescaler10 (s : State) : (s.advanceOffset).prescaler10 = s.prescaler10 := rfl
@[simp] theorem State.advanceOffset_prescaler100 (s : State) : (s.advanceOffset).prescaler100 = s.prescaler100 := rfl
@[simp] theorem State.advanceOffset_tick10Given (s : State) : (s.advanceOffset).tick10Given = s.tick10Given := rfl
@[simp] theorem State.advanceOffset_tick100Given (s : State) : (s.advanceOffset).tick100Given = s.tick100Given := rfl
@[simp] theorem State.advanceOffset_pending (s : State) : (s.advanceOffset).pending = s.pending := rfl

/-! ### State.discardCommand -/

@[simp] theorem State.discardCommand_resetHeld (s : State) : (s.discardCommand).resetHeld = s.resetHeld := rfl
@[simp] theorem State.discardCommand_de (s : State) : (s.discardCommand).de = s.de := rfl
@[simp] theorem State.discardCommand_port (s : State) : (s.discardCommand).port = s.port := rfl
@[simp] theorem State.discardCommand_readData (s : State) : (s.discardCommand).readData = s.readData := rfl
@[simp] theorem State.discardCommand_args (s : State) : (s.discardCommand).args = s.args := rfl
@[simp] theorem State.discardCommand_latch (s : State) : (s.discardCommand).latch = s.latch := rfl
@[simp] theorem State.discardCommand_commandCode (s : State) : (s.discardCommand).commandCode = s.commandCode := rfl
@[simp] theorem State.discardCommand_unit (s : State) : (s.discardCommand).unit = s.unit := rfl
@[simp] theorem State.discardCommand_cmdResult (s : State) : (s.discardCommand).cmdResult = s.cmdResult := rfl
@[simp] theorem State.discardCommand_replies (s : State) : (s.discardCommand).replies = s.replies := rfl
@[simp] theorem State.discardCommand_bufSelect (s : State) : (s.discardCommand).bufSelect = s.bufSelect := rfl
@[simp] theorem State.discardCommand_bufOffset (s : State) : (s.discardCommand).bufOffset = s.bufOffset := rfl
@[simp] theorem State.discardCommand_faultReg (s : State) : (s.discardCommand).faultReg = s.faultReg := rfl
@[simp] theorem State.discardCommand_timeSnapshot (s : State) : (s.discardCommand).timeSnapshot = s.timeSnapshot := rfl
@[simp] theorem State.discardCommand_taken (s : State) : (s.discardCommand).taken = s.taken := rfl
@[simp] theorem State.discardCommand_events (s : State) :
    (s.discardCommand).events = s.events.raise .commandOverrun := rfl
@[simp] theorem State.discardCommand_enableA (s : State) : (s.discardCommand).enableA = s.enableA := rfl
@[simp] theorem State.discardCommand_enableB (s : State) : (s.discardCommand).enableB = s.enableB := rfl
@[simp] theorem State.discardCommand_stations (s : State) : (s.discardCommand).stations = s.stations := rfl
@[simp] theorem State.discardCommand_queue (s : State) : (s.discardCommand).queue = s.queue := rfl
@[simp] theorem State.discardCommand_ticketCounter (s : State) :
    (s.discardCommand).ticketCounter = s.ticketCounter := rfl
@[simp] theorem State.discardCommand_consecutive (s : State) : (s.discardCommand).consecutive = s.consecutive := rfl
@[simp] theorem State.discardCommand_stallActive (s : State) : (s.discardCommand).stallActive = s.stallActive := rfl
@[simp] theorem State.discardCommand_stallReported (s : State) :
    (s.discardCommand).stallReported = s.stallReported := rfl
@[simp] theorem State.discardCommand_pollPointer (s : State) : (s.discardCommand).pollPointer = s.pollPointer := rfl
@[simp] theorem State.discardCommand_mode (s : State) : (s.discardCommand).mode = s.mode := rfl
@[simp] theorem State.discardCommand_phase (s : State) : (s.discardCommand).phase = s.phase := rfl
@[simp] theorem State.discardCommand_context (s : State) : (s.discardCommand).context = s.context := rfl
@[simp] theorem State.discardCommand_tx (s : State) : (s.discardCommand).tx = s.tx := rfl
@[simp] theorem State.discardCommand_reception (s : State) : (s.discardCommand).reception = s.reception := rfl
@[simp] theorem State.discardCommand_timer (s : State) : (s.discardCommand).timer = s.timer := rfl
@[simp] theorem State.discardCommand_receiver (s : State) : (s.discardCommand).receiver = s.receiver := rfl
@[simp] theorem State.discardCommand_strayCharacters (s : State) :
    (s.discardCommand).strayCharacters = s.strayCharacters := rfl
@[simp] theorem State.discardCommand_conflicts (s : State) : (s.discardCommand).conflicts = s.conflicts := rfl
@[simp] theorem State.discardCommand_breaks (s : State) : (s.discardCommand).breaks = s.breaks := rfl
@[simp] theorem State.discardCommand_lineConfig (s : State) : (s.discardCommand).lineConfig = s.lineConfig := rfl
@[simp] theorem State.discardCommand_limits (s : State) : (s.discardCommand).limits = s.limits := rfl
@[simp] theorem State.discardCommand_owners (s : State) : (s.discardCommand).owners = s.owners := rfl
@[simp] theorem State.discardCommand_freeList (s : State) : (s.discardCommand).freeList = s.freeList := rfl
@[simp] theorem State.discardCommand_memory (s : State) : (s.discardCommand).memory = s.memory := rfl
@[simp] theorem State.discardCommand_results (s : State) : (s.discardCommand).results = s.results := rfl
@[simp] theorem State.discardCommand_reserved (s : State) : (s.discardCommand).reserved = s.reserved := rfl
@[simp] theorem State.discardCommand_timeCounter (s : State) : (s.discardCommand).timeCounter = s.timeCounter := rfl
@[simp] theorem State.discardCommand_prescaler10 (s : State) : (s.discardCommand).prescaler10 = s.prescaler10 := rfl
@[simp] theorem State.discardCommand_prescaler100 (s : State) : (s.discardCommand).prescaler100 = s.prescaler100 := rfl
@[simp] theorem State.discardCommand_tick10Given (s : State) : (s.discardCommand).tick10Given = s.tick10Given := rfl
@[simp] theorem State.discardCommand_tick100Given (s : State) : (s.discardCommand).tick100Given = s.tick100Given := rfl
@[simp] theorem State.discardCommand_pending (s : State) : (s.discardCommand).pending = s.pending := rfl

/-! ### State.changeOwner -/

@[simp] theorem State.changeOwner_resetHeld (s : State) (buffer : Nat) (old new : Ownership) :
    (s.changeOwner buffer old new).resetHeld = s.resetHeld := by unfold State.changeOwner; split <;> rfl
@[simp] theorem State.changeOwner_de (s : State) (buffer : Nat) (old new : Ownership) :
    (s.changeOwner buffer old new).de = s.de := by unfold State.changeOwner; split <;> rfl
@[simp] theorem State.changeOwner_port (s : State) (buffer : Nat) (old new : Ownership) :
    (s.changeOwner buffer old new).port = s.port := by unfold State.changeOwner; split <;> rfl
@[simp] theorem State.changeOwner_readData (s : State) (buffer : Nat) (old new : Ownership) :
    (s.changeOwner buffer old new).readData = s.readData := by unfold State.changeOwner; split <;> rfl
@[simp] theorem State.changeOwner_args (s : State) (buffer : Nat) (old new : Ownership) :
    (s.changeOwner buffer old new).args = s.args := by unfold State.changeOwner; split <;> rfl
@[simp] theorem State.changeOwner_latch (s : State) (buffer : Nat) (old new : Ownership) :
    (s.changeOwner buffer old new).latch = s.latch := by unfold State.changeOwner; split <;> rfl
@[simp] theorem State.changeOwner_commandCode (s : State) (buffer : Nat) (old new : Ownership) :
    (s.changeOwner buffer old new).commandCode = s.commandCode := by unfold State.changeOwner; split <;> rfl
@[simp] theorem State.changeOwner_unit (s : State) (buffer : Nat) (old new : Ownership) :
    (s.changeOwner buffer old new).unit = s.unit := by unfold State.changeOwner; split <;> rfl
@[simp] theorem State.changeOwner_cmdResult (s : State) (buffer : Nat) (old new : Ownership) :
    (s.changeOwner buffer old new).cmdResult = s.cmdResult := by unfold State.changeOwner; split <;> rfl
@[simp] theorem State.changeOwner_replies (s : State) (buffer : Nat) (old new : Ownership) :
    (s.changeOwner buffer old new).replies = s.replies := by unfold State.changeOwner; split <;> rfl
@[simp] theorem State.changeOwner_bufSelect (s : State) (buffer : Nat) (old new : Ownership) :
    (s.changeOwner buffer old new).bufSelect = s.bufSelect := by unfold State.changeOwner; split <;> rfl
@[simp] theorem State.changeOwner_bufOffset (s : State) (buffer : Nat) (old new : Ownership) :
    (s.changeOwner buffer old new).bufOffset = s.bufOffset := by unfold State.changeOwner; split <;> rfl
@[simp] theorem State.changeOwner_faultReg (s : State) (buffer : Nat) (old new : Ownership) :
    (s.changeOwner buffer old new).faultReg = s.faultReg := by unfold State.changeOwner; split <;> rfl
@[simp] theorem State.changeOwner_timeSnapshot (s : State) (buffer : Nat) (old new : Ownership) :
    (s.changeOwner buffer old new).timeSnapshot = s.timeSnapshot := by unfold State.changeOwner; split <;> rfl
@[simp] theorem State.changeOwner_taken (s : State) (buffer : Nat) (old new : Ownership) :
    (s.changeOwner buffer old new).taken = s.taken := by unfold State.changeOwner; split <;> rfl
@[simp] theorem State.changeOwner_events (s : State) (buffer : Nat) (old new : Ownership) :
    (s.changeOwner buffer old new).events = s.events := by unfold State.changeOwner; split <;> rfl
@[simp] theorem State.changeOwner_enableA (s : State) (buffer : Nat) (old new : Ownership) :
    (s.changeOwner buffer old new).enableA = s.enableA := by unfold State.changeOwner; split <;> rfl
@[simp] theorem State.changeOwner_enableB (s : State) (buffer : Nat) (old new : Ownership) :
    (s.changeOwner buffer old new).enableB = s.enableB := by unfold State.changeOwner; split <;> rfl
@[simp] theorem State.changeOwner_stations (s : State) (buffer : Nat) (old new : Ownership) :
    (s.changeOwner buffer old new).stations = s.stations := by unfold State.changeOwner; split <;> rfl
@[simp] theorem State.changeOwner_queue (s : State) (buffer : Nat) (old new : Ownership) :
    (s.changeOwner buffer old new).queue = s.queue := by unfold State.changeOwner; split <;> rfl
@[simp] theorem State.changeOwner_ticketCounter (s : State) (buffer : Nat) (old new : Ownership) :
    (s.changeOwner buffer old new).ticketCounter = s.ticketCounter := by unfold State.changeOwner; split <;> rfl
@[simp] theorem State.changeOwner_consecutive (s : State) (buffer : Nat) (old new : Ownership) :
    (s.changeOwner buffer old new).consecutive = s.consecutive := by unfold State.changeOwner; split <;> rfl
@[simp] theorem State.changeOwner_stallActive (s : State) (buffer : Nat) (old new : Ownership) :
    (s.changeOwner buffer old new).stallActive = s.stallActive := by unfold State.changeOwner; split <;> rfl
@[simp] theorem State.changeOwner_stallReported (s : State) (buffer : Nat) (old new : Ownership) :
    (s.changeOwner buffer old new).stallReported = s.stallReported := by unfold State.changeOwner; split <;> rfl
@[simp] theorem State.changeOwner_pollPointer (s : State) (buffer : Nat) (old new : Ownership) :
    (s.changeOwner buffer old new).pollPointer = s.pollPointer := by unfold State.changeOwner; split <;> rfl
@[simp] theorem State.changeOwner_mode (s : State) (buffer : Nat) (old new : Ownership) :
    (s.changeOwner buffer old new).mode = s.mode := by unfold State.changeOwner; split <;> rfl
@[simp] theorem State.changeOwner_phase (s : State) (buffer : Nat) (old new : Ownership) :
    (s.changeOwner buffer old new).phase = s.phase := by unfold State.changeOwner; split <;> rfl
@[simp] theorem State.changeOwner_context (s : State) (buffer : Nat) (old new : Ownership) :
    (s.changeOwner buffer old new).context = s.context := by unfold State.changeOwner; split <;> rfl
@[simp] theorem State.changeOwner_tx (s : State) (buffer : Nat) (old new : Ownership) :
    (s.changeOwner buffer old new).tx = s.tx := by unfold State.changeOwner; split <;> rfl
@[simp] theorem State.changeOwner_reception (s : State) (buffer : Nat) (old new : Ownership) :
    (s.changeOwner buffer old new).reception = s.reception := by unfold State.changeOwner; split <;> rfl
@[simp] theorem State.changeOwner_timer (s : State) (buffer : Nat) (old new : Ownership) :
    (s.changeOwner buffer old new).timer = s.timer := by unfold State.changeOwner; split <;> rfl
@[simp] theorem State.changeOwner_receiver (s : State) (buffer : Nat) (old new : Ownership) :
    (s.changeOwner buffer old new).receiver = s.receiver := by unfold State.changeOwner; split <;> rfl
@[simp] theorem State.changeOwner_strayCharacters (s : State) (buffer : Nat) (old new : Ownership) :
    (s.changeOwner buffer old new).strayCharacters = s.strayCharacters := by unfold State.changeOwner; split <;> rfl
@[simp] theorem State.changeOwner_conflicts (s : State) (buffer : Nat) (old new : Ownership) :
    (s.changeOwner buffer old new).conflicts = s.conflicts := by unfold State.changeOwner; split <;> rfl
@[simp] theorem State.changeOwner_breaks (s : State) (buffer : Nat) (old new : Ownership) :
    (s.changeOwner buffer old new).breaks = s.breaks := by unfold State.changeOwner; split <;> rfl
@[simp] theorem State.changeOwner_lineConfig (s : State) (buffer : Nat) (old new : Ownership) :
    (s.changeOwner buffer old new).lineConfig = s.lineConfig := by unfold State.changeOwner; split <;> rfl
@[simp] theorem State.changeOwner_limits (s : State) (buffer : Nat) (old new : Ownership) :
    (s.changeOwner buffer old new).limits = s.limits := by unfold State.changeOwner; split <;> rfl
@[simp] theorem State.changeOwner_memory (s : State) (buffer : Nat) (old new : Ownership) :
    (s.changeOwner buffer old new).memory = s.memory := by unfold State.changeOwner; split <;> rfl
@[simp] theorem State.changeOwner_results (s : State) (buffer : Nat) (old new : Ownership) :
    (s.changeOwner buffer old new).results = s.results := by unfold State.changeOwner; split <;> rfl
@[simp] theorem State.changeOwner_reserved (s : State) (buffer : Nat) (old new : Ownership) :
    (s.changeOwner buffer old new).reserved = s.reserved := by unfold State.changeOwner; split <;> rfl
@[simp] theorem State.changeOwner_timeCounter (s : State) (buffer : Nat) (old new : Ownership) :
    (s.changeOwner buffer old new).timeCounter = s.timeCounter := by unfold State.changeOwner; split <;> rfl
@[simp] theorem State.changeOwner_prescaler10 (s : State) (buffer : Nat) (old new : Ownership) :
    (s.changeOwner buffer old new).prescaler10 = s.prescaler10 := by unfold State.changeOwner; split <;> rfl
@[simp] theorem State.changeOwner_prescaler100 (s : State) (buffer : Nat) (old new : Ownership) :
    (s.changeOwner buffer old new).prescaler100 = s.prescaler100 := by unfold State.changeOwner; split <;> rfl
@[simp] theorem State.changeOwner_tick10Given (s : State) (buffer : Nat) (old new : Ownership) :
    (s.changeOwner buffer old new).tick10Given = s.tick10Given := by unfold State.changeOwner; split <;> rfl
@[simp] theorem State.changeOwner_tick100Given (s : State) (buffer : Nat) (old new : Ownership) :
    (s.changeOwner buffer old new).tick100Given = s.tick100Given := by unfold State.changeOwner; split <;> rfl
@[simp] theorem State.changeOwner_pending (s : State) (buffer : Nat) (old new : Ownership) :
    (s.changeOwner buffer old new).pending = s.pending := by unfold State.changeOwner; split <;> rfl

/-! ### State.changeOwner? -/

@[simp] theorem State.changeOwnerOpt_resetHeld (s : State) (buffer : Option Nat) (old new : Ownership) :
    (s.changeOwner? buffer old new).resetHeld = s.resetHeld := by cases buffer <;> simp [State.changeOwner?]
@[simp] theorem State.changeOwnerOpt_de (s : State) (buffer : Option Nat) (old new : Ownership) :
    (s.changeOwner? buffer old new).de = s.de := by cases buffer <;> simp [State.changeOwner?]
@[simp] theorem State.changeOwnerOpt_port (s : State) (buffer : Option Nat) (old new : Ownership) :
    (s.changeOwner? buffer old new).port = s.port := by cases buffer <;> simp [State.changeOwner?]
@[simp] theorem State.changeOwnerOpt_readData (s : State) (buffer : Option Nat) (old new : Ownership) :
    (s.changeOwner? buffer old new).readData = s.readData := by cases buffer <;> simp [State.changeOwner?]
@[simp] theorem State.changeOwnerOpt_args (s : State) (buffer : Option Nat) (old new : Ownership) :
    (s.changeOwner? buffer old new).args = s.args := by cases buffer <;> simp [State.changeOwner?]
@[simp] theorem State.changeOwnerOpt_latch (s : State) (buffer : Option Nat) (old new : Ownership) :
    (s.changeOwner? buffer old new).latch = s.latch := by cases buffer <;> simp [State.changeOwner?]
@[simp] theorem State.changeOwnerOpt_commandCode (s : State) (buffer : Option Nat) (old new : Ownership) :
    (s.changeOwner? buffer old new).commandCode = s.commandCode := by cases buffer <;> simp [State.changeOwner?]
@[simp] theorem State.changeOwnerOpt_unit (s : State) (buffer : Option Nat) (old new : Ownership) :
    (s.changeOwner? buffer old new).unit = s.unit := by cases buffer <;> simp [State.changeOwner?]
@[simp] theorem State.changeOwnerOpt_cmdResult (s : State) (buffer : Option Nat) (old new : Ownership) :
    (s.changeOwner? buffer old new).cmdResult = s.cmdResult := by cases buffer <;> simp [State.changeOwner?]
@[simp] theorem State.changeOwnerOpt_replies (s : State) (buffer : Option Nat) (old new : Ownership) :
    (s.changeOwner? buffer old new).replies = s.replies := by cases buffer <;> simp [State.changeOwner?]
@[simp] theorem State.changeOwnerOpt_bufSelect (s : State) (buffer : Option Nat) (old new : Ownership) :
    (s.changeOwner? buffer old new).bufSelect = s.bufSelect := by cases buffer <;> simp [State.changeOwner?]
@[simp] theorem State.changeOwnerOpt_bufOffset (s : State) (buffer : Option Nat) (old new : Ownership) :
    (s.changeOwner? buffer old new).bufOffset = s.bufOffset := by cases buffer <;> simp [State.changeOwner?]
@[simp] theorem State.changeOwnerOpt_faultReg (s : State) (buffer : Option Nat) (old new : Ownership) :
    (s.changeOwner? buffer old new).faultReg = s.faultReg := by cases buffer <;> simp [State.changeOwner?]
@[simp] theorem State.changeOwnerOpt_timeSnapshot (s : State) (buffer : Option Nat) (old new : Ownership) :
    (s.changeOwner? buffer old new).timeSnapshot = s.timeSnapshot := by cases buffer <;> simp [State.changeOwner?]
@[simp] theorem State.changeOwnerOpt_taken (s : State) (buffer : Option Nat) (old new : Ownership) :
    (s.changeOwner? buffer old new).taken = s.taken := by cases buffer <;> simp [State.changeOwner?]
@[simp] theorem State.changeOwnerOpt_events (s : State) (buffer : Option Nat) (old new : Ownership) :
    (s.changeOwner? buffer old new).events = s.events := by cases buffer <;> simp [State.changeOwner?]
@[simp] theorem State.changeOwnerOpt_enableA (s : State) (buffer : Option Nat) (old new : Ownership) :
    (s.changeOwner? buffer old new).enableA = s.enableA := by cases buffer <;> simp [State.changeOwner?]
@[simp] theorem State.changeOwnerOpt_enableB (s : State) (buffer : Option Nat) (old new : Ownership) :
    (s.changeOwner? buffer old new).enableB = s.enableB := by cases buffer <;> simp [State.changeOwner?]
@[simp] theorem State.changeOwnerOpt_stations (s : State) (buffer : Option Nat) (old new : Ownership) :
    (s.changeOwner? buffer old new).stations = s.stations := by cases buffer <;> simp [State.changeOwner?]
@[simp] theorem State.changeOwnerOpt_queue (s : State) (buffer : Option Nat) (old new : Ownership) :
    (s.changeOwner? buffer old new).queue = s.queue := by cases buffer <;> simp [State.changeOwner?]
@[simp] theorem State.changeOwnerOpt_ticketCounter (s : State) (buffer : Option Nat) (old new : Ownership) :
    (s.changeOwner? buffer old new).ticketCounter = s.ticketCounter := by cases buffer <;> simp [State.changeOwner?]
@[simp] theorem State.changeOwnerOpt_consecutive (s : State) (buffer : Option Nat) (old new : Ownership) :
    (s.changeOwner? buffer old new).consecutive = s.consecutive := by cases buffer <;> simp [State.changeOwner?]
@[simp] theorem State.changeOwnerOpt_stallActive (s : State) (buffer : Option Nat) (old new : Ownership) :
    (s.changeOwner? buffer old new).stallActive = s.stallActive := by cases buffer <;> simp [State.changeOwner?]
@[simp] theorem State.changeOwnerOpt_stallReported (s : State) (buffer : Option Nat) (old new : Ownership) :
    (s.changeOwner? buffer old new).stallReported = s.stallReported := by cases buffer <;> simp [State.changeOwner?]
@[simp] theorem State.changeOwnerOpt_pollPointer (s : State) (buffer : Option Nat) (old new : Ownership) :
    (s.changeOwner? buffer old new).pollPointer = s.pollPointer := by cases buffer <;> simp [State.changeOwner?]
@[simp] theorem State.changeOwnerOpt_mode (s : State) (buffer : Option Nat) (old new : Ownership) :
    (s.changeOwner? buffer old new).mode = s.mode := by cases buffer <;> simp [State.changeOwner?]
@[simp] theorem State.changeOwnerOpt_phase (s : State) (buffer : Option Nat) (old new : Ownership) :
    (s.changeOwner? buffer old new).phase = s.phase := by cases buffer <;> simp [State.changeOwner?]
@[simp] theorem State.changeOwnerOpt_context (s : State) (buffer : Option Nat) (old new : Ownership) :
    (s.changeOwner? buffer old new).context = s.context := by cases buffer <;> simp [State.changeOwner?]
@[simp] theorem State.changeOwnerOpt_tx (s : State) (buffer : Option Nat) (old new : Ownership) :
    (s.changeOwner? buffer old new).tx = s.tx := by cases buffer <;> simp [State.changeOwner?]
@[simp] theorem State.changeOwnerOpt_reception (s : State) (buffer : Option Nat) (old new : Ownership) :
    (s.changeOwner? buffer old new).reception = s.reception := by cases buffer <;> simp [State.changeOwner?]
@[simp] theorem State.changeOwnerOpt_timer (s : State) (buffer : Option Nat) (old new : Ownership) :
    (s.changeOwner? buffer old new).timer = s.timer := by cases buffer <;> simp [State.changeOwner?]
@[simp] theorem State.changeOwnerOpt_receiver (s : State) (buffer : Option Nat) (old new : Ownership) :
    (s.changeOwner? buffer old new).receiver = s.receiver := by cases buffer <;> simp [State.changeOwner?]
@[simp] theorem State.changeOwnerOpt_strayCharacters (s : State) (buffer : Option Nat) (old new : Ownership) :
    (s.changeOwner? buffer old new).strayCharacters = s.strayCharacters :=
  by cases buffer <;> simp [State.changeOwner?]
@[simp] theorem State.changeOwnerOpt_conflicts (s : State) (buffer : Option Nat) (old new : Ownership) :
    (s.changeOwner? buffer old new).conflicts = s.conflicts := by cases buffer <;> simp [State.changeOwner?]
@[simp] theorem State.changeOwnerOpt_breaks (s : State) (buffer : Option Nat) (old new : Ownership) :
    (s.changeOwner? buffer old new).breaks = s.breaks := by cases buffer <;> simp [State.changeOwner?]
@[simp] theorem State.changeOwnerOpt_lineConfig (s : State) (buffer : Option Nat) (old new : Ownership) :
    (s.changeOwner? buffer old new).lineConfig = s.lineConfig := by cases buffer <;> simp [State.changeOwner?]
@[simp] theorem State.changeOwnerOpt_limits (s : State) (buffer : Option Nat) (old new : Ownership) :
    (s.changeOwner? buffer old new).limits = s.limits := by cases buffer <;> simp [State.changeOwner?]
@[simp] theorem State.changeOwnerOpt_memory (s : State) (buffer : Option Nat) (old new : Ownership) :
    (s.changeOwner? buffer old new).memory = s.memory := by cases buffer <;> simp [State.changeOwner?]
@[simp] theorem State.changeOwnerOpt_results (s : State) (buffer : Option Nat) (old new : Ownership) :
    (s.changeOwner? buffer old new).results = s.results := by cases buffer <;> simp [State.changeOwner?]
@[simp] theorem State.changeOwnerOpt_reserved (s : State) (buffer : Option Nat) (old new : Ownership) :
    (s.changeOwner? buffer old new).reserved = s.reserved := by cases buffer <;> simp [State.changeOwner?]
@[simp] theorem State.changeOwnerOpt_timeCounter (s : State) (buffer : Option Nat) (old new : Ownership) :
    (s.changeOwner? buffer old new).timeCounter = s.timeCounter := by cases buffer <;> simp [State.changeOwner?]
@[simp] theorem State.changeOwnerOpt_prescaler10 (s : State) (buffer : Option Nat) (old new : Ownership) :
    (s.changeOwner? buffer old new).prescaler10 = s.prescaler10 := by cases buffer <;> simp [State.changeOwner?]
@[simp] theorem State.changeOwnerOpt_prescaler100 (s : State) (buffer : Option Nat) (old new : Ownership) :
    (s.changeOwner? buffer old new).prescaler100 = s.prescaler100 := by cases buffer <;> simp [State.changeOwner?]
@[simp] theorem State.changeOwnerOpt_tick10Given (s : State) (buffer : Option Nat) (old new : Ownership) :
    (s.changeOwner? buffer old new).tick10Given = s.tick10Given := by cases buffer <;> simp [State.changeOwner?]
@[simp] theorem State.changeOwnerOpt_tick100Given (s : State) (buffer : Option Nat) (old new : Ownership) :
    (s.changeOwner? buffer old new).tick100Given = s.tick100Given := by cases buffer <;> simp [State.changeOwner?]
@[simp] theorem State.changeOwnerOpt_pending (s : State) (buffer : Option Nat) (old new : Ownership) :
    (s.changeOwner? buffer old new).pending = s.pending := by cases buffer <;> simp [State.changeOwner?]

/-! ### State.takeHead -/

@[simp] theorem State.takeHead_resetHeld (s : State) (new : Ownership) :
    (s.takeHead new).resetHeld = s.resetHeld := by unfold State.takeHead; split <;> rfl
@[simp] theorem State.takeHead_de (s : State) (new : Ownership) :
    (s.takeHead new).de = s.de := by unfold State.takeHead; split <;> rfl
@[simp] theorem State.takeHead_port (s : State) (new : Ownership) :
    (s.takeHead new).port = s.port := by unfold State.takeHead; split <;> rfl
@[simp] theorem State.takeHead_readData (s : State) (new : Ownership) :
    (s.takeHead new).readData = s.readData := by unfold State.takeHead; split <;> rfl
@[simp] theorem State.takeHead_args (s : State) (new : Ownership) :
    (s.takeHead new).args = s.args := by unfold State.takeHead; split <;> rfl
@[simp] theorem State.takeHead_latch (s : State) (new : Ownership) :
    (s.takeHead new).latch = s.latch := by unfold State.takeHead; split <;> rfl
@[simp] theorem State.takeHead_commandCode (s : State) (new : Ownership) :
    (s.takeHead new).commandCode = s.commandCode := by unfold State.takeHead; split <;> rfl
@[simp] theorem State.takeHead_unit (s : State) (new : Ownership) :
    (s.takeHead new).unit = s.unit := by unfold State.takeHead; split <;> rfl
@[simp] theorem State.takeHead_cmdResult (s : State) (new : Ownership) :
    (s.takeHead new).cmdResult = s.cmdResult := by unfold State.takeHead; split <;> rfl
@[simp] theorem State.takeHead_replies (s : State) (new : Ownership) :
    (s.takeHead new).replies = s.replies := by unfold State.takeHead; split <;> rfl
@[simp] theorem State.takeHead_bufSelect (s : State) (new : Ownership) :
    (s.takeHead new).bufSelect = s.bufSelect := by unfold State.takeHead; split <;> rfl
@[simp] theorem State.takeHead_bufOffset (s : State) (new : Ownership) :
    (s.takeHead new).bufOffset = s.bufOffset := by unfold State.takeHead; split <;> rfl
@[simp] theorem State.takeHead_faultReg (s : State) (new : Ownership) :
    (s.takeHead new).faultReg = s.faultReg := by unfold State.takeHead; split <;> rfl
@[simp] theorem State.takeHead_timeSnapshot (s : State) (new : Ownership) :
    (s.takeHead new).timeSnapshot = s.timeSnapshot := by unfold State.takeHead; split <;> rfl
@[simp] theorem State.takeHead_taken (s : State) (new : Ownership) :
    (s.takeHead new).taken = s.taken := by unfold State.takeHead; split <;> rfl
@[simp] theorem State.takeHead_enableA (s : State) (new : Ownership) :
    (s.takeHead new).enableA = s.enableA := by unfold State.takeHead; split <;> rfl
@[simp] theorem State.takeHead_enableB (s : State) (new : Ownership) :
    (s.takeHead new).enableB = s.enableB := by unfold State.takeHead; split <;> rfl
@[simp] theorem State.takeHead_stations (s : State) (new : Ownership) :
    (s.takeHead new).stations = s.stations := by unfold State.takeHead; split <;> rfl
@[simp] theorem State.takeHead_queue (s : State) (new : Ownership) :
    (s.takeHead new).queue = s.queue := by unfold State.takeHead; split <;> rfl
@[simp] theorem State.takeHead_ticketCounter (s : State) (new : Ownership) :
    (s.takeHead new).ticketCounter = s.ticketCounter := by unfold State.takeHead; split <;> rfl
@[simp] theorem State.takeHead_consecutive (s : State) (new : Ownership) :
    (s.takeHead new).consecutive = s.consecutive := by unfold State.takeHead; split <;> rfl
@[simp] theorem State.takeHead_stallActive (s : State) (new : Ownership) :
    (s.takeHead new).stallActive = s.stallActive := by unfold State.takeHead; split <;> rfl
@[simp] theorem State.takeHead_stallReported (s : State) (new : Ownership) :
    (s.takeHead new).stallReported = s.stallReported := by unfold State.takeHead; split <;> rfl
@[simp] theorem State.takeHead_pollPointer (s : State) (new : Ownership) :
    (s.takeHead new).pollPointer = s.pollPointer := by unfold State.takeHead; split <;> rfl
@[simp] theorem State.takeHead_mode (s : State) (new : Ownership) :
    (s.takeHead new).mode = s.mode := by unfold State.takeHead; split <;> rfl
@[simp] theorem State.takeHead_phase (s : State) (new : Ownership) :
    (s.takeHead new).phase = s.phase := by unfold State.takeHead; split <;> rfl
@[simp] theorem State.takeHead_context (s : State) (new : Ownership) :
    (s.takeHead new).context = s.context := by unfold State.takeHead; split <;> rfl
@[simp] theorem State.takeHead_tx (s : State) (new : Ownership) :
    (s.takeHead new).tx = s.tx := by unfold State.takeHead; split <;> rfl
@[simp] theorem State.takeHead_reception (s : State) (new : Ownership) :
    (s.takeHead new).reception = s.reception := by unfold State.takeHead; split <;> rfl
@[simp] theorem State.takeHead_timer (s : State) (new : Ownership) :
    (s.takeHead new).timer = s.timer := by unfold State.takeHead; split <;> rfl
@[simp] theorem State.takeHead_receiver (s : State) (new : Ownership) :
    (s.takeHead new).receiver = s.receiver := by unfold State.takeHead; split <;> rfl
@[simp] theorem State.takeHead_strayCharacters (s : State) (new : Ownership) :
    (s.takeHead new).strayCharacters = s.strayCharacters := by unfold State.takeHead; split <;> rfl
@[simp] theorem State.takeHead_conflicts (s : State) (new : Ownership) :
    (s.takeHead new).conflicts = s.conflicts := by unfold State.takeHead; split <;> rfl
@[simp] theorem State.takeHead_breaks (s : State) (new : Ownership) :
    (s.takeHead new).breaks = s.breaks := by unfold State.takeHead; split <;> rfl
@[simp] theorem State.takeHead_lineConfig (s : State) (new : Ownership) :
    (s.takeHead new).lineConfig = s.lineConfig := by unfold State.takeHead; split <;> rfl
@[simp] theorem State.takeHead_limits (s : State) (new : Ownership) :
    (s.takeHead new).limits = s.limits := by unfold State.takeHead; split <;> rfl
@[simp] theorem State.takeHead_results (s : State) (new : Ownership) :
    (s.takeHead new).results = s.results := by unfold State.takeHead; split <;> rfl
@[simp] theorem State.takeHead_reserved (s : State) (new : Ownership) :
    (s.takeHead new).reserved = s.reserved := by unfold State.takeHead; split <;> rfl
@[simp] theorem State.takeHead_timeCounter (s : State) (new : Ownership) :
    (s.takeHead new).timeCounter = s.timeCounter := by unfold State.takeHead; split <;> rfl
@[simp] theorem State.takeHead_prescaler10 (s : State) (new : Ownership) :
    (s.takeHead new).prescaler10 = s.prescaler10 := by unfold State.takeHead; split <;> rfl
@[simp] theorem State.takeHead_prescaler100 (s : State) (new : Ownership) :
    (s.takeHead new).prescaler100 = s.prescaler100 := by unfold State.takeHead; split <;> rfl
@[simp] theorem State.takeHead_tick10Given (s : State) (new : Ownership) :
    (s.takeHead new).tick10Given = s.tick10Given := by unfold State.takeHead; split <;> rfl
@[simp] theorem State.takeHead_tick100Given (s : State) (new : Ownership) :
    (s.takeHead new).tick100Given = s.tick100Given := by unfold State.takeHead; split <;> rfl
@[simp] theorem State.takeHead_pending (s : State) (new : Ownership) :
    (s.takeHead new).pending = s.pending := by unfold State.takeHead; split <;> rfl

/-! ### State.setStation -/

@[simp] theorem State.setStation_resetHeld (s : State) (address : Nat) (entry : Station) :
    (s.setStation address entry).resetHeld = s.resetHeld := by cases address <;> rfl
@[simp] theorem State.setStation_de (s : State) (address : Nat) (entry : Station) :
    (s.setStation address entry).de = s.de := by cases address <;> rfl
@[simp] theorem State.setStation_port (s : State) (address : Nat) (entry : Station) :
    (s.setStation address entry).port = s.port := by cases address <;> rfl
@[simp] theorem State.setStation_readData (s : State) (address : Nat) (entry : Station) :
    (s.setStation address entry).readData = s.readData := by cases address <;> rfl
@[simp] theorem State.setStation_args (s : State) (address : Nat) (entry : Station) :
    (s.setStation address entry).args = s.args := by cases address <;> rfl
@[simp] theorem State.setStation_latch (s : State) (address : Nat) (entry : Station) :
    (s.setStation address entry).latch = s.latch := by cases address <;> rfl
@[simp] theorem State.setStation_commandCode (s : State) (address : Nat) (entry : Station) :
    (s.setStation address entry).commandCode = s.commandCode := by cases address <;> rfl
@[simp] theorem State.setStation_unit (s : State) (address : Nat) (entry : Station) :
    (s.setStation address entry).unit = s.unit := by cases address <;> rfl
@[simp] theorem State.setStation_cmdResult (s : State) (address : Nat) (entry : Station) :
    (s.setStation address entry).cmdResult = s.cmdResult := by cases address <;> rfl
@[simp] theorem State.setStation_replies (s : State) (address : Nat) (entry : Station) :
    (s.setStation address entry).replies = s.replies := by cases address <;> rfl
@[simp] theorem State.setStation_bufSelect (s : State) (address : Nat) (entry : Station) :
    (s.setStation address entry).bufSelect = s.bufSelect := by cases address <;> rfl
@[simp] theorem State.setStation_bufOffset (s : State) (address : Nat) (entry : Station) :
    (s.setStation address entry).bufOffset = s.bufOffset := by cases address <;> rfl
@[simp] theorem State.setStation_faultReg (s : State) (address : Nat) (entry : Station) :
    (s.setStation address entry).faultReg = s.faultReg := by cases address <;> rfl
@[simp] theorem State.setStation_timeSnapshot (s : State) (address : Nat) (entry : Station) :
    (s.setStation address entry).timeSnapshot = s.timeSnapshot := by cases address <;> rfl
@[simp] theorem State.setStation_taken (s : State) (address : Nat) (entry : Station) :
    (s.setStation address entry).taken = s.taken := by cases address <;> rfl
@[simp] theorem State.setStation_events (s : State) (address : Nat) (entry : Station) :
    (s.setStation address entry).events = s.events := by cases address <;> rfl
@[simp] theorem State.setStation_enableA (s : State) (address : Nat) (entry : Station) :
    (s.setStation address entry).enableA = s.enableA := by cases address <;> rfl
@[simp] theorem State.setStation_enableB (s : State) (address : Nat) (entry : Station) :
    (s.setStation address entry).enableB = s.enableB := by cases address <;> rfl
@[simp] theorem State.setStation_queue (s : State) (address : Nat) (entry : Station) :
    (s.setStation address entry).queue = s.queue := by cases address <;> rfl
@[simp] theorem State.setStation_ticketCounter (s : State) (address : Nat) (entry : Station) :
    (s.setStation address entry).ticketCounter = s.ticketCounter := by cases address <;> rfl
@[simp] theorem State.setStation_consecutive (s : State) (address : Nat) (entry : Station) :
    (s.setStation address entry).consecutive = s.consecutive := by cases address <;> rfl
@[simp] theorem State.setStation_stallActive (s : State) (address : Nat) (entry : Station) :
    (s.setStation address entry).stallActive = s.stallActive := by cases address <;> rfl
@[simp] theorem State.setStation_stallReported (s : State) (address : Nat) (entry : Station) :
    (s.setStation address entry).stallReported = s.stallReported := by cases address <;> rfl
@[simp] theorem State.setStation_pollPointer (s : State) (address : Nat) (entry : Station) :
    (s.setStation address entry).pollPointer = s.pollPointer := by cases address <;> rfl
@[simp] theorem State.setStation_mode (s : State) (address : Nat) (entry : Station) :
    (s.setStation address entry).mode = s.mode := by cases address <;> rfl
@[simp] theorem State.setStation_phase (s : State) (address : Nat) (entry : Station) :
    (s.setStation address entry).phase = s.phase := by cases address <;> rfl
@[simp] theorem State.setStation_context (s : State) (address : Nat) (entry : Station) :
    (s.setStation address entry).context = s.context := by cases address <;> rfl
@[simp] theorem State.setStation_tx (s : State) (address : Nat) (entry : Station) :
    (s.setStation address entry).tx = s.tx := by cases address <;> rfl
@[simp] theorem State.setStation_reception (s : State) (address : Nat) (entry : Station) :
    (s.setStation address entry).reception = s.reception := by cases address <;> rfl
@[simp] theorem State.setStation_timer (s : State) (address : Nat) (entry : Station) :
    (s.setStation address entry).timer = s.timer := by cases address <;> rfl
@[simp] theorem State.setStation_receiver (s : State) (address : Nat) (entry : Station) :
    (s.setStation address entry).receiver = s.receiver := by cases address <;> rfl
@[simp] theorem State.setStation_strayCharacters (s : State) (address : Nat) (entry : Station) :
    (s.setStation address entry).strayCharacters = s.strayCharacters := by cases address <;> rfl
@[simp] theorem State.setStation_conflicts (s : State) (address : Nat) (entry : Station) :
    (s.setStation address entry).conflicts = s.conflicts := by cases address <;> rfl
@[simp] theorem State.setStation_breaks (s : State) (address : Nat) (entry : Station) :
    (s.setStation address entry).breaks = s.breaks := by cases address <;> rfl
@[simp] theorem State.setStation_lineConfig (s : State) (address : Nat) (entry : Station) :
    (s.setStation address entry).lineConfig = s.lineConfig := by cases address <;> rfl
@[simp] theorem State.setStation_limits (s : State) (address : Nat) (entry : Station) :
    (s.setStation address entry).limits = s.limits := by cases address <;> rfl
@[simp] theorem State.setStation_owners (s : State) (address : Nat) (entry : Station) :
    (s.setStation address entry).owners = s.owners := by cases address <;> rfl
@[simp] theorem State.setStation_freeList (s : State) (address : Nat) (entry : Station) :
    (s.setStation address entry).freeList = s.freeList := by cases address <;> rfl
@[simp] theorem State.setStation_memory (s : State) (address : Nat) (entry : Station) :
    (s.setStation address entry).memory = s.memory := by cases address <;> rfl
@[simp] theorem State.setStation_results (s : State) (address : Nat) (entry : Station) :
    (s.setStation address entry).results = s.results := by cases address <;> rfl
@[simp] theorem State.setStation_reserved (s : State) (address : Nat) (entry : Station) :
    (s.setStation address entry).reserved = s.reserved := by cases address <;> rfl
@[simp] theorem State.setStation_timeCounter (s : State) (address : Nat) (entry : Station) :
    (s.setStation address entry).timeCounter = s.timeCounter := by cases address <;> rfl
@[simp] theorem State.setStation_prescaler10 (s : State) (address : Nat) (entry : Station) :
    (s.setStation address entry).prescaler10 = s.prescaler10 := by cases address <;> rfl
@[simp] theorem State.setStation_prescaler100 (s : State) (address : Nat) (entry : Station) :
    (s.setStation address entry).prescaler100 = s.prescaler100 := by cases address <;> rfl
@[simp] theorem State.setStation_tick10Given (s : State) (address : Nat) (entry : Station) :
    (s.setStation address entry).tick10Given = s.tick10Given := by cases address <;> rfl
@[simp] theorem State.setStation_tick100Given (s : State) (address : Nat) (entry : Station) :
    (s.setStation address entry).tick100Given = s.tick100Given := by cases address <;> rfl
@[simp] theorem State.setStation_pending (s : State) (address : Nat) (entry : Station) :
    (s.setStation address entry).pending = s.pending := by cases address <;> rfl

/-! ### State.clearSynced -/

@[simp] theorem State.clearSynced_resetHeld (s : State) (address : Nat) :
    (s.clearSynced address).resetHeld = s.resetHeld := by simp [State.clearSynced]
@[simp] theorem State.clearSynced_de (s : State) (address : Nat) :
    (s.clearSynced address).de = s.de := by simp [State.clearSynced]
@[simp] theorem State.clearSynced_port (s : State) (address : Nat) :
    (s.clearSynced address).port = s.port := by simp [State.clearSynced]
@[simp] theorem State.clearSynced_readData (s : State) (address : Nat) :
    (s.clearSynced address).readData = s.readData := by simp [State.clearSynced]
@[simp] theorem State.clearSynced_args (s : State) (address : Nat) :
    (s.clearSynced address).args = s.args := by simp [State.clearSynced]
@[simp] theorem State.clearSynced_latch (s : State) (address : Nat) :
    (s.clearSynced address).latch = s.latch := by simp [State.clearSynced]
@[simp] theorem State.clearSynced_commandCode (s : State) (address : Nat) :
    (s.clearSynced address).commandCode = s.commandCode := by simp [State.clearSynced]
@[simp] theorem State.clearSynced_unit (s : State) (address : Nat) :
    (s.clearSynced address).unit = s.unit := by simp [State.clearSynced]
@[simp] theorem State.clearSynced_cmdResult (s : State) (address : Nat) :
    (s.clearSynced address).cmdResult = s.cmdResult := by simp [State.clearSynced]
@[simp] theorem State.clearSynced_replies (s : State) (address : Nat) :
    (s.clearSynced address).replies = s.replies := by simp [State.clearSynced]
@[simp] theorem State.clearSynced_bufSelect (s : State) (address : Nat) :
    (s.clearSynced address).bufSelect = s.bufSelect := by simp [State.clearSynced]
@[simp] theorem State.clearSynced_bufOffset (s : State) (address : Nat) :
    (s.clearSynced address).bufOffset = s.bufOffset := by simp [State.clearSynced]
@[simp] theorem State.clearSynced_faultReg (s : State) (address : Nat) :
    (s.clearSynced address).faultReg = s.faultReg := by simp [State.clearSynced]
@[simp] theorem State.clearSynced_timeSnapshot (s : State) (address : Nat) :
    (s.clearSynced address).timeSnapshot = s.timeSnapshot := by simp [State.clearSynced]
@[simp] theorem State.clearSynced_taken (s : State) (address : Nat) :
    (s.clearSynced address).taken = s.taken := by simp [State.clearSynced]
@[simp] theorem State.clearSynced_events (s : State) (address : Nat) :
    (s.clearSynced address).events = s.events := by simp [State.clearSynced]
@[simp] theorem State.clearSynced_enableA (s : State) (address : Nat) :
    (s.clearSynced address).enableA = s.enableA := by simp [State.clearSynced]
@[simp] theorem State.clearSynced_enableB (s : State) (address : Nat) :
    (s.clearSynced address).enableB = s.enableB := by simp [State.clearSynced]
@[simp] theorem State.clearSynced_queue (s : State) (address : Nat) :
    (s.clearSynced address).queue = s.queue := by simp [State.clearSynced]
@[simp] theorem State.clearSynced_ticketCounter (s : State) (address : Nat) :
    (s.clearSynced address).ticketCounter = s.ticketCounter := by simp [State.clearSynced]
@[simp] theorem State.clearSynced_consecutive (s : State) (address : Nat) :
    (s.clearSynced address).consecutive = s.consecutive := by simp [State.clearSynced]
@[simp] theorem State.clearSynced_stallActive (s : State) (address : Nat) :
    (s.clearSynced address).stallActive = s.stallActive := by simp [State.clearSynced]
@[simp] theorem State.clearSynced_stallReported (s : State) (address : Nat) :
    (s.clearSynced address).stallReported = s.stallReported := by simp [State.clearSynced]
@[simp] theorem State.clearSynced_pollPointer (s : State) (address : Nat) :
    (s.clearSynced address).pollPointer = s.pollPointer := by simp [State.clearSynced]
@[simp] theorem State.clearSynced_mode (s : State) (address : Nat) :
    (s.clearSynced address).mode = s.mode := by simp [State.clearSynced]
@[simp] theorem State.clearSynced_phase (s : State) (address : Nat) :
    (s.clearSynced address).phase = s.phase := by simp [State.clearSynced]
@[simp] theorem State.clearSynced_context (s : State) (address : Nat) :
    (s.clearSynced address).context = s.context := by simp [State.clearSynced]
@[simp] theorem State.clearSynced_tx (s : State) (address : Nat) :
    (s.clearSynced address).tx = s.tx := by simp [State.clearSynced]
@[simp] theorem State.clearSynced_reception (s : State) (address : Nat) :
    (s.clearSynced address).reception = s.reception := by simp [State.clearSynced]
@[simp] theorem State.clearSynced_timer (s : State) (address : Nat) :
    (s.clearSynced address).timer = s.timer := by simp [State.clearSynced]
@[simp] theorem State.clearSynced_receiver (s : State) (address : Nat) :
    (s.clearSynced address).receiver = s.receiver := by simp [State.clearSynced]
@[simp] theorem State.clearSynced_strayCharacters (s : State) (address : Nat) :
    (s.clearSynced address).strayCharacters = s.strayCharacters := by simp [State.clearSynced]
@[simp] theorem State.clearSynced_conflicts (s : State) (address : Nat) :
    (s.clearSynced address).conflicts = s.conflicts := by simp [State.clearSynced]
@[simp] theorem State.clearSynced_breaks (s : State) (address : Nat) :
    (s.clearSynced address).breaks = s.breaks := by simp [State.clearSynced]
@[simp] theorem State.clearSynced_lineConfig (s : State) (address : Nat) :
    (s.clearSynced address).lineConfig = s.lineConfig := by simp [State.clearSynced]
@[simp] theorem State.clearSynced_limits (s : State) (address : Nat) :
    (s.clearSynced address).limits = s.limits := by simp [State.clearSynced]
@[simp] theorem State.clearSynced_owners (s : State) (address : Nat) :
    (s.clearSynced address).owners = s.owners := by simp [State.clearSynced]
@[simp] theorem State.clearSynced_freeList (s : State) (address : Nat) :
    (s.clearSynced address).freeList = s.freeList := by simp [State.clearSynced]
@[simp] theorem State.clearSynced_memory (s : State) (address : Nat) :
    (s.clearSynced address).memory = s.memory := by simp [State.clearSynced]
@[simp] theorem State.clearSynced_results (s : State) (address : Nat) :
    (s.clearSynced address).results = s.results := by simp [State.clearSynced]
@[simp] theorem State.clearSynced_reserved (s : State) (address : Nat) :
    (s.clearSynced address).reserved = s.reserved := by simp [State.clearSynced]
@[simp] theorem State.clearSynced_timeCounter (s : State) (address : Nat) :
    (s.clearSynced address).timeCounter = s.timeCounter := by simp [State.clearSynced]
@[simp] theorem State.clearSynced_prescaler10 (s : State) (address : Nat) :
    (s.clearSynced address).prescaler10 = s.prescaler10 := by simp [State.clearSynced]
@[simp] theorem State.clearSynced_prescaler100 (s : State) (address : Nat) :
    (s.clearSynced address).prescaler100 = s.prescaler100 := by simp [State.clearSynced]
@[simp] theorem State.clearSynced_tick10Given (s : State) (address : Nat) :
    (s.clearSynced address).tick10Given = s.tick10Given := by simp [State.clearSynced]
@[simp] theorem State.clearSynced_tick100Given (s : State) (address : Nat) :
    (s.clearSynced address).tick100Given = s.tick100Given := by simp [State.clearSynced]
@[simp] theorem State.clearSynced_pending (s : State) (address : Nat) :
    (s.clearSynced address).pending = s.pending := by simp [State.clearSynced]

/-! ### State.writeBuffer -/

@[simp] theorem State.writeBuffer_resetHeld (s : State) (buffer i : Nat) (value : Byte) :
    (s.writeBuffer buffer i value).resetHeld = s.resetHeld := by unfold State.writeBuffer; split <;> rfl
@[simp] theorem State.writeBuffer_de (s : State) (buffer i : Nat) (value : Byte) :
    (s.writeBuffer buffer i value).de = s.de := by unfold State.writeBuffer; split <;> rfl
@[simp] theorem State.writeBuffer_port (s : State) (buffer i : Nat) (value : Byte) :
    (s.writeBuffer buffer i value).port = s.port := by unfold State.writeBuffer; split <;> rfl
@[simp] theorem State.writeBuffer_readData (s : State) (buffer i : Nat) (value : Byte) :
    (s.writeBuffer buffer i value).readData = s.readData := by unfold State.writeBuffer; split <;> rfl
@[simp] theorem State.writeBuffer_args (s : State) (buffer i : Nat) (value : Byte) :
    (s.writeBuffer buffer i value).args = s.args := by unfold State.writeBuffer; split <;> rfl
@[simp] theorem State.writeBuffer_latch (s : State) (buffer i : Nat) (value : Byte) :
    (s.writeBuffer buffer i value).latch = s.latch := by unfold State.writeBuffer; split <;> rfl
@[simp] theorem State.writeBuffer_commandCode (s : State) (buffer i : Nat) (value : Byte) :
    (s.writeBuffer buffer i value).commandCode = s.commandCode := by unfold State.writeBuffer; split <;> rfl
@[simp] theorem State.writeBuffer_unit (s : State) (buffer i : Nat) (value : Byte) :
    (s.writeBuffer buffer i value).unit = s.unit := by unfold State.writeBuffer; split <;> rfl
@[simp] theorem State.writeBuffer_cmdResult (s : State) (buffer i : Nat) (value : Byte) :
    (s.writeBuffer buffer i value).cmdResult = s.cmdResult := by unfold State.writeBuffer; split <;> rfl
@[simp] theorem State.writeBuffer_replies (s : State) (buffer i : Nat) (value : Byte) :
    (s.writeBuffer buffer i value).replies = s.replies := by unfold State.writeBuffer; split <;> rfl
@[simp] theorem State.writeBuffer_bufSelect (s : State) (buffer i : Nat) (value : Byte) :
    (s.writeBuffer buffer i value).bufSelect = s.bufSelect := by unfold State.writeBuffer; split <;> rfl
@[simp] theorem State.writeBuffer_bufOffset (s : State) (buffer i : Nat) (value : Byte) :
    (s.writeBuffer buffer i value).bufOffset = s.bufOffset := by unfold State.writeBuffer; split <;> rfl
@[simp] theorem State.writeBuffer_faultReg (s : State) (buffer i : Nat) (value : Byte) :
    (s.writeBuffer buffer i value).faultReg = s.faultReg := by unfold State.writeBuffer; split <;> rfl
@[simp] theorem State.writeBuffer_timeSnapshot (s : State) (buffer i : Nat) (value : Byte) :
    (s.writeBuffer buffer i value).timeSnapshot = s.timeSnapshot := by unfold State.writeBuffer; split <;> rfl
@[simp] theorem State.writeBuffer_taken (s : State) (buffer i : Nat) (value : Byte) :
    (s.writeBuffer buffer i value).taken = s.taken := by unfold State.writeBuffer; split <;> rfl
@[simp] theorem State.writeBuffer_events (s : State) (buffer i : Nat) (value : Byte) :
    (s.writeBuffer buffer i value).events = s.events := by unfold State.writeBuffer; split <;> rfl
@[simp] theorem State.writeBuffer_enableA (s : State) (buffer i : Nat) (value : Byte) :
    (s.writeBuffer buffer i value).enableA = s.enableA := by unfold State.writeBuffer; split <;> rfl
@[simp] theorem State.writeBuffer_enableB (s : State) (buffer i : Nat) (value : Byte) :
    (s.writeBuffer buffer i value).enableB = s.enableB := by unfold State.writeBuffer; split <;> rfl
@[simp] theorem State.writeBuffer_stations (s : State) (buffer i : Nat) (value : Byte) :
    (s.writeBuffer buffer i value).stations = s.stations := by unfold State.writeBuffer; split <;> rfl
@[simp] theorem State.writeBuffer_queue (s : State) (buffer i : Nat) (value : Byte) :
    (s.writeBuffer buffer i value).queue = s.queue := by unfold State.writeBuffer; split <;> rfl
@[simp] theorem State.writeBuffer_ticketCounter (s : State) (buffer i : Nat) (value : Byte) :
    (s.writeBuffer buffer i value).ticketCounter = s.ticketCounter := by unfold State.writeBuffer; split <;> rfl
@[simp] theorem State.writeBuffer_consecutive (s : State) (buffer i : Nat) (value : Byte) :
    (s.writeBuffer buffer i value).consecutive = s.consecutive := by unfold State.writeBuffer; split <;> rfl
@[simp] theorem State.writeBuffer_stallActive (s : State) (buffer i : Nat) (value : Byte) :
    (s.writeBuffer buffer i value).stallActive = s.stallActive := by unfold State.writeBuffer; split <;> rfl
@[simp] theorem State.writeBuffer_stallReported (s : State) (buffer i : Nat) (value : Byte) :
    (s.writeBuffer buffer i value).stallReported = s.stallReported := by unfold State.writeBuffer; split <;> rfl
@[simp] theorem State.writeBuffer_pollPointer (s : State) (buffer i : Nat) (value : Byte) :
    (s.writeBuffer buffer i value).pollPointer = s.pollPointer := by unfold State.writeBuffer; split <;> rfl
@[simp] theorem State.writeBuffer_mode (s : State) (buffer i : Nat) (value : Byte) :
    (s.writeBuffer buffer i value).mode = s.mode := by unfold State.writeBuffer; split <;> rfl
@[simp] theorem State.writeBuffer_phase (s : State) (buffer i : Nat) (value : Byte) :
    (s.writeBuffer buffer i value).phase = s.phase := by unfold State.writeBuffer; split <;> rfl
@[simp] theorem State.writeBuffer_context (s : State) (buffer i : Nat) (value : Byte) :
    (s.writeBuffer buffer i value).context = s.context := by unfold State.writeBuffer; split <;> rfl
@[simp] theorem State.writeBuffer_tx (s : State) (buffer i : Nat) (value : Byte) :
    (s.writeBuffer buffer i value).tx = s.tx := by unfold State.writeBuffer; split <;> rfl
@[simp] theorem State.writeBuffer_reception (s : State) (buffer i : Nat) (value : Byte) :
    (s.writeBuffer buffer i value).reception = s.reception := by unfold State.writeBuffer; split <;> rfl
@[simp] theorem State.writeBuffer_timer (s : State) (buffer i : Nat) (value : Byte) :
    (s.writeBuffer buffer i value).timer = s.timer := by unfold State.writeBuffer; split <;> rfl
@[simp] theorem State.writeBuffer_receiver (s : State) (buffer i : Nat) (value : Byte) :
    (s.writeBuffer buffer i value).receiver = s.receiver := by unfold State.writeBuffer; split <;> rfl
@[simp] theorem State.writeBuffer_strayCharacters (s : State) (buffer i : Nat) (value : Byte) :
    (s.writeBuffer buffer i value).strayCharacters = s.strayCharacters := by unfold State.writeBuffer; split <;> rfl
@[simp] theorem State.writeBuffer_conflicts (s : State) (buffer i : Nat) (value : Byte) :
    (s.writeBuffer buffer i value).conflicts = s.conflicts := by unfold State.writeBuffer; split <;> rfl
@[simp] theorem State.writeBuffer_breaks (s : State) (buffer i : Nat) (value : Byte) :
    (s.writeBuffer buffer i value).breaks = s.breaks := by unfold State.writeBuffer; split <;> rfl
@[simp] theorem State.writeBuffer_lineConfig (s : State) (buffer i : Nat) (value : Byte) :
    (s.writeBuffer buffer i value).lineConfig = s.lineConfig := by unfold State.writeBuffer; split <;> rfl
@[simp] theorem State.writeBuffer_limits (s : State) (buffer i : Nat) (value : Byte) :
    (s.writeBuffer buffer i value).limits = s.limits := by unfold State.writeBuffer; split <;> rfl
@[simp] theorem State.writeBuffer_owners (s : State) (buffer i : Nat) (value : Byte) :
    (s.writeBuffer buffer i value).owners = s.owners := by unfold State.writeBuffer; split <;> rfl
@[simp] theorem State.writeBuffer_freeList (s : State) (buffer i : Nat) (value : Byte) :
    (s.writeBuffer buffer i value).freeList = s.freeList := by unfold State.writeBuffer; split <;> rfl
@[simp] theorem State.writeBuffer_results (s : State) (buffer i : Nat) (value : Byte) :
    (s.writeBuffer buffer i value).results = s.results := by unfold State.writeBuffer; split <;> rfl
@[simp] theorem State.writeBuffer_reserved (s : State) (buffer i : Nat) (value : Byte) :
    (s.writeBuffer buffer i value).reserved = s.reserved := by unfold State.writeBuffer; split <;> rfl
@[simp] theorem State.writeBuffer_timeCounter (s : State) (buffer i : Nat) (value : Byte) :
    (s.writeBuffer buffer i value).timeCounter = s.timeCounter := by unfold State.writeBuffer; split <;> rfl
@[simp] theorem State.writeBuffer_prescaler10 (s : State) (buffer i : Nat) (value : Byte) :
    (s.writeBuffer buffer i value).prescaler10 = s.prescaler10 := by unfold State.writeBuffer; split <;> rfl
@[simp] theorem State.writeBuffer_prescaler100 (s : State) (buffer i : Nat) (value : Byte) :
    (s.writeBuffer buffer i value).prescaler100 = s.prescaler100 := by unfold State.writeBuffer; split <;> rfl
@[simp] theorem State.writeBuffer_tick10Given (s : State) (buffer i : Nat) (value : Byte) :
    (s.writeBuffer buffer i value).tick10Given = s.tick10Given := by unfold State.writeBuffer; split <;> rfl
@[simp] theorem State.writeBuffer_tick100Given (s : State) (buffer i : Nat) (value : Byte) :
    (s.writeBuffer buffer i value).tick100Given = s.tick100Given := by unfold State.writeBuffer; split <;> rfl
@[simp] theorem State.writeBuffer_pending (s : State) (buffer i : Nat) (value : Byte) :
    (s.writeBuffer buffer i value).pending = s.pending := by unfold State.writeBuffer; split <;> rfl

/-! ### State.storePayload -/

@[simp] theorem State.storePayload_resetHeld (s : State) (c : Context) (data : Byte) :
    (s.storePayload c data).resetHeld = s.resetHeld := by unfold State.storePayload; (repeat' split) <;> simp
@[simp] theorem State.storePayload_de (s : State) (c : Context) (data : Byte) :
    (s.storePayload c data).de = s.de := by unfold State.storePayload; (repeat' split) <;> simp
@[simp] theorem State.storePayload_port (s : State) (c : Context) (data : Byte) :
    (s.storePayload c data).port = s.port := by unfold State.storePayload; (repeat' split) <;> simp
@[simp] theorem State.storePayload_readData (s : State) (c : Context) (data : Byte) :
    (s.storePayload c data).readData = s.readData := by unfold State.storePayload; (repeat' split) <;> simp
@[simp] theorem State.storePayload_args (s : State) (c : Context) (data : Byte) :
    (s.storePayload c data).args = s.args := by unfold State.storePayload; (repeat' split) <;> simp
@[simp] theorem State.storePayload_latch (s : State) (c : Context) (data : Byte) :
    (s.storePayload c data).latch = s.latch := by unfold State.storePayload; (repeat' split) <;> simp
@[simp] theorem State.storePayload_commandCode (s : State) (c : Context) (data : Byte) :
    (s.storePayload c data).commandCode = s.commandCode := by unfold State.storePayload; (repeat' split) <;> simp
@[simp] theorem State.storePayload_unit (s : State) (c : Context) (data : Byte) :
    (s.storePayload c data).unit = s.unit := by unfold State.storePayload; (repeat' split) <;> simp
@[simp] theorem State.storePayload_cmdResult (s : State) (c : Context) (data : Byte) :
    (s.storePayload c data).cmdResult = s.cmdResult := by unfold State.storePayload; (repeat' split) <;> simp
@[simp] theorem State.storePayload_replies (s : State) (c : Context) (data : Byte) :
    (s.storePayload c data).replies = s.replies := by unfold State.storePayload; (repeat' split) <;> simp
@[simp] theorem State.storePayload_bufSelect (s : State) (c : Context) (data : Byte) :
    (s.storePayload c data).bufSelect = s.bufSelect := by unfold State.storePayload; (repeat' split) <;> simp
@[simp] theorem State.storePayload_bufOffset (s : State) (c : Context) (data : Byte) :
    (s.storePayload c data).bufOffset = s.bufOffset := by unfold State.storePayload; (repeat' split) <;> simp
@[simp] theorem State.storePayload_faultReg (s : State) (c : Context) (data : Byte) :
    (s.storePayload c data).faultReg = s.faultReg := by unfold State.storePayload; (repeat' split) <;> simp
@[simp] theorem State.storePayload_timeSnapshot (s : State) (c : Context) (data : Byte) :
    (s.storePayload c data).timeSnapshot = s.timeSnapshot := by unfold State.storePayload; (repeat' split) <;> simp
@[simp] theorem State.storePayload_taken (s : State) (c : Context) (data : Byte) :
    (s.storePayload c data).taken = s.taken := by unfold State.storePayload; (repeat' split) <;> simp
@[simp] theorem State.storePayload_events (s : State) (c : Context) (data : Byte) :
    (s.storePayload c data).events = s.events := by unfold State.storePayload; (repeat' split) <;> simp
@[simp] theorem State.storePayload_enableA (s : State) (c : Context) (data : Byte) :
    (s.storePayload c data).enableA = s.enableA := by unfold State.storePayload; (repeat' split) <;> simp
@[simp] theorem State.storePayload_enableB (s : State) (c : Context) (data : Byte) :
    (s.storePayload c data).enableB = s.enableB := by unfold State.storePayload; (repeat' split) <;> simp
@[simp] theorem State.storePayload_stations (s : State) (c : Context) (data : Byte) :
    (s.storePayload c data).stations = s.stations := by unfold State.storePayload; (repeat' split) <;> simp
@[simp] theorem State.storePayload_queue (s : State) (c : Context) (data : Byte) :
    (s.storePayload c data).queue = s.queue := by unfold State.storePayload; (repeat' split) <;> simp
@[simp] theorem State.storePayload_ticketCounter (s : State) (c : Context) (data : Byte) :
    (s.storePayload c data).ticketCounter = s.ticketCounter := by unfold State.storePayload; (repeat' split) <;> simp
@[simp] theorem State.storePayload_consecutive (s : State) (c : Context) (data : Byte) :
    (s.storePayload c data).consecutive = s.consecutive := by unfold State.storePayload; (repeat' split) <;> simp
@[simp] theorem State.storePayload_stallActive (s : State) (c : Context) (data : Byte) :
    (s.storePayload c data).stallActive = s.stallActive := by unfold State.storePayload; (repeat' split) <;> simp
@[simp] theorem State.storePayload_stallReported (s : State) (c : Context) (data : Byte) :
    (s.storePayload c data).stallReported = s.stallReported := by unfold State.storePayload; (repeat' split) <;> simp
@[simp] theorem State.storePayload_pollPointer (s : State) (c : Context) (data : Byte) :
    (s.storePayload c data).pollPointer = s.pollPointer := by unfold State.storePayload; (repeat' split) <;> simp
@[simp] theorem State.storePayload_mode (s : State) (c : Context) (data : Byte) :
    (s.storePayload c data).mode = s.mode := by unfold State.storePayload; (repeat' split) <;> simp
@[simp] theorem State.storePayload_phase (s : State) (c : Context) (data : Byte) :
    (s.storePayload c data).phase = s.phase := by unfold State.storePayload; (repeat' split) <;> simp
@[simp] theorem State.storePayload_context (s : State) (c : Context) (data : Byte) :
    (s.storePayload c data).context = s.context := by unfold State.storePayload; (repeat' split) <;> simp
@[simp] theorem State.storePayload_tx (s : State) (c : Context) (data : Byte) :
    (s.storePayload c data).tx = s.tx := by unfold State.storePayload; (repeat' split) <;> simp
@[simp] theorem State.storePayload_reception (s : State) (c : Context) (data : Byte) :
    (s.storePayload c data).reception = s.reception := by unfold State.storePayload; (repeat' split) <;> simp
@[simp] theorem State.storePayload_timer (s : State) (c : Context) (data : Byte) :
    (s.storePayload c data).timer = s.timer := by unfold State.storePayload; (repeat' split) <;> simp
@[simp] theorem State.storePayload_receiver (s : State) (c : Context) (data : Byte) :
    (s.storePayload c data).receiver = s.receiver := by unfold State.storePayload; (repeat' split) <;> simp
@[simp] theorem State.storePayload_strayCharacters (s : State) (c : Context) (data : Byte) :
    (s.storePayload c data).strayCharacters = s.strayCharacters :=
  by unfold State.storePayload; (repeat' split) <;> simp
@[simp] theorem State.storePayload_conflicts (s : State) (c : Context) (data : Byte) :
    (s.storePayload c data).conflicts = s.conflicts := by unfold State.storePayload; (repeat' split) <;> simp
@[simp] theorem State.storePayload_breaks (s : State) (c : Context) (data : Byte) :
    (s.storePayload c data).breaks = s.breaks := by unfold State.storePayload; (repeat' split) <;> simp
@[simp] theorem State.storePayload_lineConfig (s : State) (c : Context) (data : Byte) :
    (s.storePayload c data).lineConfig = s.lineConfig := by unfold State.storePayload; (repeat' split) <;> simp
@[simp] theorem State.storePayload_limits (s : State) (c : Context) (data : Byte) :
    (s.storePayload c data).limits = s.limits := by unfold State.storePayload; (repeat' split) <;> simp
@[simp] theorem State.storePayload_owners (s : State) (c : Context) (data : Byte) :
    (s.storePayload c data).owners = s.owners := by unfold State.storePayload; (repeat' split) <;> simp
@[simp] theorem State.storePayload_freeList (s : State) (c : Context) (data : Byte) :
    (s.storePayload c data).freeList = s.freeList := by unfold State.storePayload; (repeat' split) <;> simp
@[simp] theorem State.storePayload_results (s : State) (c : Context) (data : Byte) :
    (s.storePayload c data).results = s.results := by unfold State.storePayload; (repeat' split) <;> simp
@[simp] theorem State.storePayload_reserved (s : State) (c : Context) (data : Byte) :
    (s.storePayload c data).reserved = s.reserved := by unfold State.storePayload; (repeat' split) <;> simp
@[simp] theorem State.storePayload_timeCounter (s : State) (c : Context) (data : Byte) :
    (s.storePayload c data).timeCounter = s.timeCounter := by unfold State.storePayload; (repeat' split) <;> simp
@[simp] theorem State.storePayload_prescaler10 (s : State) (c : Context) (data : Byte) :
    (s.storePayload c data).prescaler10 = s.prescaler10 := by unfold State.storePayload; (repeat' split) <;> simp
@[simp] theorem State.storePayload_prescaler100 (s : State) (c : Context) (data : Byte) :
    (s.storePayload c data).prescaler100 = s.prescaler100 := by unfold State.storePayload; (repeat' split) <;> simp
@[simp] theorem State.storePayload_tick10Given (s : State) (c : Context) (data : Byte) :
    (s.storePayload c data).tick10Given = s.tick10Given := by unfold State.storePayload; (repeat' split) <;> simp
@[simp] theorem State.storePayload_tick100Given (s : State) (c : Context) (data : Byte) :
    (s.storePayload c data).tick100Given = s.tick100Given := by unfold State.storePayload; (repeat' split) <;> simp
@[simp] theorem State.storePayload_pending (s : State) (c : Context) (data : Byte) :
    (s.storePayload c data).pending = s.pending := by unfold State.storePayload; (repeat' split) <;> simp

/-! ### State.endDrain -/

@[simp] theorem State.endDrain_resetHeld (s : State) :
    (s.endDrain).resetHeld = s.resetHeld := by unfold State.endDrain; split <;> rfl
@[simp] theorem State.endDrain_de (s : State) : (s.endDrain).de = s.de := by unfold State.endDrain; split <;> rfl
@[simp] theorem State.endDrain_port (s : State) : (s.endDrain).port = s.port := by unfold State.endDrain; split <;> rfl
@[simp] theorem State.endDrain_readData (s : State) :
    (s.endDrain).readData = s.readData := by unfold State.endDrain; split <;> rfl
@[simp] theorem State.endDrain_args (s : State) : (s.endDrain).args = s.args := by unfold State.endDrain; split <;> rfl
@[simp] theorem State.endDrain_latch (s : State) :
    (s.endDrain).latch = s.latch := by unfold State.endDrain; split <;> rfl
@[simp] theorem State.endDrain_commandCode (s : State) :
    (s.endDrain).commandCode = s.commandCode := by unfold State.endDrain; split <;> rfl
@[simp] theorem State.endDrain_unit (s : State) : (s.endDrain).unit = s.unit := by unfold State.endDrain; split <;> rfl
@[simp] theorem State.endDrain_cmdResult (s : State) :
    (s.endDrain).cmdResult = s.cmdResult := by unfold State.endDrain; split <;> rfl
@[simp] theorem State.endDrain_replies (s : State) :
    (s.endDrain).replies = s.replies := by unfold State.endDrain; split <;> rfl
@[simp] theorem State.endDrain_bufSelect (s : State) :
    (s.endDrain).bufSelect = s.bufSelect := by unfold State.endDrain; split <;> rfl
@[simp] theorem State.endDrain_bufOffset (s : State) :
    (s.endDrain).bufOffset = s.bufOffset := by unfold State.endDrain; split <;> rfl
@[simp] theorem State.endDrain_faultReg (s : State) :
    (s.endDrain).faultReg = s.faultReg := by unfold State.endDrain; split <;> rfl
@[simp] theorem State.endDrain_timeSnapshot (s : State) :
    (s.endDrain).timeSnapshot = s.timeSnapshot := by unfold State.endDrain; split <;> rfl
@[simp] theorem State.endDrain_taken (s : State) :
    (s.endDrain).taken = s.taken := by unfold State.endDrain; split <;> rfl
@[simp] theorem State.endDrain_enableA (s : State) :
    (s.endDrain).enableA = s.enableA := by unfold State.endDrain; split <;> rfl
@[simp] theorem State.endDrain_enableB (s : State) :
    (s.endDrain).enableB = s.enableB := by unfold State.endDrain; split <;> rfl
@[simp] theorem State.endDrain_stations (s : State) :
    (s.endDrain).stations = s.stations := by unfold State.endDrain; split <;> rfl
@[simp] theorem State.endDrain_queue (s : State) :
    (s.endDrain).queue = s.queue := by unfold State.endDrain; split <;> rfl
@[simp] theorem State.endDrain_ticketCounter (s : State) :
    (s.endDrain).ticketCounter = s.ticketCounter := by unfold State.endDrain; split <;> rfl
@[simp] theorem State.endDrain_consecutive (s : State) :
    (s.endDrain).consecutive = s.consecutive := by unfold State.endDrain; split <;> rfl
@[simp] theorem State.endDrain_stallReported (s : State) :
    (s.endDrain).stallReported = s.stallReported := by unfold State.endDrain; split <;> rfl
@[simp] theorem State.endDrain_pollPointer (s : State) :
    (s.endDrain).pollPointer = s.pollPointer := by unfold State.endDrain; split <;> rfl
@[simp] theorem State.endDrain_context (s : State) :
    (s.endDrain).context = s.context := by unfold State.endDrain; split <;> rfl
@[simp] theorem State.endDrain_tx (s : State) : (s.endDrain).tx = s.tx := by unfold State.endDrain; split <;> rfl
@[simp] theorem State.endDrain_reception (s : State) :
    (s.endDrain).reception = s.reception := by unfold State.endDrain; split <;> rfl
@[simp] theorem State.endDrain_receiver (s : State) :
    (s.endDrain).receiver = s.receiver := by unfold State.endDrain; split <;> rfl
@[simp] theorem State.endDrain_strayCharacters (s : State) :
    (s.endDrain).strayCharacters = s.strayCharacters := by unfold State.endDrain; split <;> rfl
@[simp] theorem State.endDrain_conflicts (s : State) :
    (s.endDrain).conflicts = s.conflicts := by unfold State.endDrain; split <;> rfl
@[simp] theorem State.endDrain_breaks (s : State) :
    (s.endDrain).breaks = s.breaks := by unfold State.endDrain; split <;> rfl
@[simp] theorem State.endDrain_lineConfig (s : State) :
    (s.endDrain).lineConfig = s.lineConfig := by unfold State.endDrain; split <;> rfl
@[simp] theorem State.endDrain_limits (s : State) :
    (s.endDrain).limits = s.limits := by unfold State.endDrain; split <;> rfl
@[simp] theorem State.endDrain_owners (s : State) :
    (s.endDrain).owners = s.owners := by unfold State.endDrain; split <;> rfl
@[simp] theorem State.endDrain_freeList (s : State) :
    (s.endDrain).freeList = s.freeList := by unfold State.endDrain; split <;> rfl
@[simp] theorem State.endDrain_memory (s : State) :
    (s.endDrain).memory = s.memory := by unfold State.endDrain; split <;> rfl
@[simp] theorem State.endDrain_results (s : State) :
    (s.endDrain).results = s.results := by unfold State.endDrain; split <;> rfl
@[simp] theorem State.endDrain_reserved (s : State) :
    (s.endDrain).reserved = s.reserved := by unfold State.endDrain; split <;> rfl
@[simp] theorem State.endDrain_timeCounter (s : State) :
    (s.endDrain).timeCounter = s.timeCounter := by unfold State.endDrain; split <;> rfl
@[simp] theorem State.endDrain_prescaler10 (s : State) :
    (s.endDrain).prescaler10 = s.prescaler10 := by unfold State.endDrain; split <;> rfl
@[simp] theorem State.endDrain_prescaler100 (s : State) :
    (s.endDrain).prescaler100 = s.prescaler100 := by unfold State.endDrain; split <;> rfl
@[simp] theorem State.endDrain_tick10Given (s : State) :
    (s.endDrain).tick10Given = s.tick10Given := by unfold State.endDrain; split <;> rfl
@[simp] theorem State.endDrain_tick100Given (s : State) :
    (s.endDrain).tick100Given = s.tick100Given := by unfold State.endDrain; split <;> rfl
@[simp] theorem State.endDrain_pending (s : State) :
    (s.endDrain).pending = s.pending := by unfold State.endDrain; split <;> rfl

/-! ### State.settleSlot -/

@[simp] theorem State.settleSlot_resetHeld (s : State) (record : Option ResultRecord) :
    (s.settleSlot record).resetHeld = s.resetHeld := by cases record <;> rfl
@[simp] theorem State.settleSlot_de (s : State) (record : Option ResultRecord) :
    (s.settleSlot record).de = s.de := by cases record <;> rfl
@[simp] theorem State.settleSlot_port (s : State) (record : Option ResultRecord) :
    (s.settleSlot record).port = s.port := by cases record <;> rfl
@[simp] theorem State.settleSlot_readData (s : State) (record : Option ResultRecord) :
    (s.settleSlot record).readData = s.readData := by cases record <;> rfl
@[simp] theorem State.settleSlot_args (s : State) (record : Option ResultRecord) :
    (s.settleSlot record).args = s.args := by cases record <;> rfl
@[simp] theorem State.settleSlot_latch (s : State) (record : Option ResultRecord) :
    (s.settleSlot record).latch = s.latch := by cases record <;> rfl
@[simp] theorem State.settleSlot_commandCode (s : State) (record : Option ResultRecord) :
    (s.settleSlot record).commandCode = s.commandCode := by cases record <;> rfl
@[simp] theorem State.settleSlot_unit (s : State) (record : Option ResultRecord) :
    (s.settleSlot record).unit = s.unit := by cases record <;> rfl
@[simp] theorem State.settleSlot_cmdResult (s : State) (record : Option ResultRecord) :
    (s.settleSlot record).cmdResult = s.cmdResult := by cases record <;> rfl
@[simp] theorem State.settleSlot_replies (s : State) (record : Option ResultRecord) :
    (s.settleSlot record).replies = s.replies := by cases record <;> rfl
@[simp] theorem State.settleSlot_bufSelect (s : State) (record : Option ResultRecord) :
    (s.settleSlot record).bufSelect = s.bufSelect := by cases record <;> rfl
@[simp] theorem State.settleSlot_bufOffset (s : State) (record : Option ResultRecord) :
    (s.settleSlot record).bufOffset = s.bufOffset := by cases record <;> rfl
@[simp] theorem State.settleSlot_faultReg (s : State) (record : Option ResultRecord) :
    (s.settleSlot record).faultReg = s.faultReg := by cases record <;> rfl
@[simp] theorem State.settleSlot_timeSnapshot (s : State) (record : Option ResultRecord) :
    (s.settleSlot record).timeSnapshot = s.timeSnapshot := by cases record <;> rfl
@[simp] theorem State.settleSlot_taken (s : State) (record : Option ResultRecord) :
    (s.settleSlot record).taken = s.taken := by cases record <;> rfl
@[simp] theorem State.settleSlot_enableA (s : State) (record : Option ResultRecord) :
    (s.settleSlot record).enableA = s.enableA := by cases record <;> rfl
@[simp] theorem State.settleSlot_enableB (s : State) (record : Option ResultRecord) :
    (s.settleSlot record).enableB = s.enableB := by cases record <;> rfl
@[simp] theorem State.settleSlot_stations (s : State) (record : Option ResultRecord) :
    (s.settleSlot record).stations = s.stations := by cases record <;> rfl
@[simp] theorem State.settleSlot_queue (s : State) (record : Option ResultRecord) :
    (s.settleSlot record).queue = s.queue := by cases record <;> rfl
@[simp] theorem State.settleSlot_ticketCounter (s : State) (record : Option ResultRecord) :
    (s.settleSlot record).ticketCounter = s.ticketCounter := by cases record <;> rfl
@[simp] theorem State.settleSlot_consecutive (s : State) (record : Option ResultRecord) :
    (s.settleSlot record).consecutive = s.consecutive := by cases record <;> rfl
@[simp] theorem State.settleSlot_stallActive (s : State) (record : Option ResultRecord) :
    (s.settleSlot record).stallActive = s.stallActive := by cases record <;> rfl
@[simp] theorem State.settleSlot_stallReported (s : State) (record : Option ResultRecord) :
    (s.settleSlot record).stallReported = s.stallReported := by cases record <;> rfl
@[simp] theorem State.settleSlot_pollPointer (s : State) (record : Option ResultRecord) :
    (s.settleSlot record).pollPointer = s.pollPointer := by cases record <;> rfl
@[simp] theorem State.settleSlot_mode (s : State) (record : Option ResultRecord) :
    (s.settleSlot record).mode = s.mode := by cases record <;> rfl
@[simp] theorem State.settleSlot_phase (s : State) (record : Option ResultRecord) :
    (s.settleSlot record).phase = s.phase := by cases record <;> rfl
@[simp] theorem State.settleSlot_context (s : State) (record : Option ResultRecord) :
    (s.settleSlot record).context = s.context := by cases record <;> rfl
@[simp] theorem State.settleSlot_tx (s : State) (record : Option ResultRecord) :
    (s.settleSlot record).tx = s.tx := by cases record <;> rfl
@[simp] theorem State.settleSlot_reception (s : State) (record : Option ResultRecord) :
    (s.settleSlot record).reception = s.reception := by cases record <;> rfl
@[simp] theorem State.settleSlot_timer (s : State) (record : Option ResultRecord) :
    (s.settleSlot record).timer = s.timer := by cases record <;> rfl
@[simp] theorem State.settleSlot_receiver (s : State) (record : Option ResultRecord) :
    (s.settleSlot record).receiver = s.receiver := by cases record <;> rfl
@[simp] theorem State.settleSlot_strayCharacters (s : State) (record : Option ResultRecord) :
    (s.settleSlot record).strayCharacters = s.strayCharacters := by cases record <;> rfl
@[simp] theorem State.settleSlot_conflicts (s : State) (record : Option ResultRecord) :
    (s.settleSlot record).conflicts = s.conflicts := by cases record <;> rfl
@[simp] theorem State.settleSlot_breaks (s : State) (record : Option ResultRecord) :
    (s.settleSlot record).breaks = s.breaks := by cases record <;> rfl
@[simp] theorem State.settleSlot_lineConfig (s : State) (record : Option ResultRecord) :
    (s.settleSlot record).lineConfig = s.lineConfig := by cases record <;> rfl
@[simp] theorem State.settleSlot_limits (s : State) (record : Option ResultRecord) :
    (s.settleSlot record).limits = s.limits := by cases record <;> rfl
@[simp] theorem State.settleSlot_owners (s : State) (record : Option ResultRecord) :
    (s.settleSlot record).owners = s.owners := by cases record <;> rfl
@[simp] theorem State.settleSlot_freeList (s : State) (record : Option ResultRecord) :
    (s.settleSlot record).freeList = s.freeList := by cases record <;> rfl
@[simp] theorem State.settleSlot_memory (s : State) (record : Option ResultRecord) :
    (s.settleSlot record).memory = s.memory := by cases record <;> rfl
@[simp] theorem State.settleSlot_reserved (s : State) (record : Option ResultRecord) :
    (s.settleSlot record).reserved = false := by cases record <;> rfl
@[simp] theorem State.settleSlot_timeCounter (s : State) (record : Option ResultRecord) :
    (s.settleSlot record).timeCounter = s.timeCounter := by cases record <;> rfl
@[simp] theorem State.settleSlot_prescaler10 (s : State) (record : Option ResultRecord) :
    (s.settleSlot record).prescaler10 = s.prescaler10 := by cases record <;> rfl
@[simp] theorem State.settleSlot_prescaler100 (s : State) (record : Option ResultRecord) :
    (s.settleSlot record).prescaler100 = s.prescaler100 := by cases record <;> rfl
@[simp] theorem State.settleSlot_tick10Given (s : State) (record : Option ResultRecord) :
    (s.settleSlot record).tick10Given = s.tick10Given := by cases record <;> rfl
@[simp] theorem State.settleSlot_tick100Given (s : State) (record : Option ResultRecord) :
    (s.settleSlot record).tick100Given = s.tick100Given := by cases record <;> rfl
@[simp] theorem State.settleSlot_pending (s : State) (record : Option ResultRecord) :
    (s.settleSlot record).pending = s.pending := by cases record <;> rfl

/-! ### State.disposeBuffers -/

@[simp] theorem State.disposeBuffers_resetHeld (s : State) (c : Context) (attached : Bool) :
    (s.disposeBuffers c attached).resetHeld = s.resetHeld := by simp [State.disposeBuffers]
@[simp] theorem State.disposeBuffers_de (s : State) (c : Context) (attached : Bool) :
    (s.disposeBuffers c attached).de = s.de := by simp [State.disposeBuffers]
@[simp] theorem State.disposeBuffers_port (s : State) (c : Context) (attached : Bool) :
    (s.disposeBuffers c attached).port = s.port := by simp [State.disposeBuffers]
@[simp] theorem State.disposeBuffers_readData (s : State) (c : Context) (attached : Bool) :
    (s.disposeBuffers c attached).readData = s.readData := by simp [State.disposeBuffers]
@[simp] theorem State.disposeBuffers_args (s : State) (c : Context) (attached : Bool) :
    (s.disposeBuffers c attached).args = s.args := by simp [State.disposeBuffers]
@[simp] theorem State.disposeBuffers_latch (s : State) (c : Context) (attached : Bool) :
    (s.disposeBuffers c attached).latch = s.latch := by simp [State.disposeBuffers]
@[simp] theorem State.disposeBuffers_commandCode (s : State) (c : Context) (attached : Bool) :
    (s.disposeBuffers c attached).commandCode = s.commandCode := by simp [State.disposeBuffers]
@[simp] theorem State.disposeBuffers_unit (s : State) (c : Context) (attached : Bool) :
    (s.disposeBuffers c attached).unit = s.unit := by simp [State.disposeBuffers]
@[simp] theorem State.disposeBuffers_cmdResult (s : State) (c : Context) (attached : Bool) :
    (s.disposeBuffers c attached).cmdResult = s.cmdResult := by simp [State.disposeBuffers]
@[simp] theorem State.disposeBuffers_replies (s : State) (c : Context) (attached : Bool) :
    (s.disposeBuffers c attached).replies = s.replies := by simp [State.disposeBuffers]
@[simp] theorem State.disposeBuffers_bufSelect (s : State) (c : Context) (attached : Bool) :
    (s.disposeBuffers c attached).bufSelect = s.bufSelect := by simp [State.disposeBuffers]
@[simp] theorem State.disposeBuffers_bufOffset (s : State) (c : Context) (attached : Bool) :
    (s.disposeBuffers c attached).bufOffset = s.bufOffset := by simp [State.disposeBuffers]
@[simp] theorem State.disposeBuffers_faultReg (s : State) (c : Context) (attached : Bool) :
    (s.disposeBuffers c attached).faultReg = s.faultReg := by simp [State.disposeBuffers]
@[simp] theorem State.disposeBuffers_timeSnapshot (s : State) (c : Context) (attached : Bool) :
    (s.disposeBuffers c attached).timeSnapshot = s.timeSnapshot := by simp [State.disposeBuffers]
@[simp] theorem State.disposeBuffers_taken (s : State) (c : Context) (attached : Bool) :
    (s.disposeBuffers c attached).taken = s.taken := by simp [State.disposeBuffers]
@[simp] theorem State.disposeBuffers_events (s : State) (c : Context) (attached : Bool) :
    (s.disposeBuffers c attached).events = s.events := by simp [State.disposeBuffers]
@[simp] theorem State.disposeBuffers_enableA (s : State) (c : Context) (attached : Bool) :
    (s.disposeBuffers c attached).enableA = s.enableA := by simp [State.disposeBuffers]
@[simp] theorem State.disposeBuffers_enableB (s : State) (c : Context) (attached : Bool) :
    (s.disposeBuffers c attached).enableB = s.enableB := by simp [State.disposeBuffers]
@[simp] theorem State.disposeBuffers_stations (s : State) (c : Context) (attached : Bool) :
    (s.disposeBuffers c attached).stations = s.stations := by simp [State.disposeBuffers]
@[simp] theorem State.disposeBuffers_queue (s : State) (c : Context) (attached : Bool) :
    (s.disposeBuffers c attached).queue = s.queue := by simp [State.disposeBuffers]
@[simp] theorem State.disposeBuffers_ticketCounter (s : State) (c : Context) (attached : Bool) :
    (s.disposeBuffers c attached).ticketCounter = s.ticketCounter := by simp [State.disposeBuffers]
@[simp] theorem State.disposeBuffers_consecutive (s : State) (c : Context) (attached : Bool) :
    (s.disposeBuffers c attached).consecutive = s.consecutive := by simp [State.disposeBuffers]
@[simp] theorem State.disposeBuffers_stallActive (s : State) (c : Context) (attached : Bool) :
    (s.disposeBuffers c attached).stallActive = s.stallActive := by simp [State.disposeBuffers]
@[simp] theorem State.disposeBuffers_stallReported (s : State) (c : Context) (attached : Bool) :
    (s.disposeBuffers c attached).stallReported = s.stallReported := by simp [State.disposeBuffers]
@[simp] theorem State.disposeBuffers_pollPointer (s : State) (c : Context) (attached : Bool) :
    (s.disposeBuffers c attached).pollPointer = s.pollPointer := by simp [State.disposeBuffers]
@[simp] theorem State.disposeBuffers_mode (s : State) (c : Context) (attached : Bool) :
    (s.disposeBuffers c attached).mode = s.mode := by simp [State.disposeBuffers]
@[simp] theorem State.disposeBuffers_phase (s : State) (c : Context) (attached : Bool) :
    (s.disposeBuffers c attached).phase = s.phase := by simp [State.disposeBuffers]
@[simp] theorem State.disposeBuffers_context (s : State) (c : Context) (attached : Bool) :
    (s.disposeBuffers c attached).context = s.context := by simp [State.disposeBuffers]
@[simp] theorem State.disposeBuffers_tx (s : State) (c : Context) (attached : Bool) :
    (s.disposeBuffers c attached).tx = s.tx := by simp [State.disposeBuffers]
@[simp] theorem State.disposeBuffers_reception (s : State) (c : Context) (attached : Bool) :
    (s.disposeBuffers c attached).reception = s.reception := by simp [State.disposeBuffers]
@[simp] theorem State.disposeBuffers_timer (s : State) (c : Context) (attached : Bool) :
    (s.disposeBuffers c attached).timer = s.timer := by simp [State.disposeBuffers]
@[simp] theorem State.disposeBuffers_receiver (s : State) (c : Context) (attached : Bool) :
    (s.disposeBuffers c attached).receiver = s.receiver := by simp [State.disposeBuffers]
@[simp] theorem State.disposeBuffers_strayCharacters (s : State) (c : Context) (attached : Bool) :
    (s.disposeBuffers c attached).strayCharacters = s.strayCharacters := by simp [State.disposeBuffers]
@[simp] theorem State.disposeBuffers_conflicts (s : State) (c : Context) (attached : Bool) :
    (s.disposeBuffers c attached).conflicts = s.conflicts := by simp [State.disposeBuffers]
@[simp] theorem State.disposeBuffers_breaks (s : State) (c : Context) (attached : Bool) :
    (s.disposeBuffers c attached).breaks = s.breaks := by simp [State.disposeBuffers]
@[simp] theorem State.disposeBuffers_lineConfig (s : State) (c : Context) (attached : Bool) :
    (s.disposeBuffers c attached).lineConfig = s.lineConfig := by simp [State.disposeBuffers]
@[simp] theorem State.disposeBuffers_limits (s : State) (c : Context) (attached : Bool) :
    (s.disposeBuffers c attached).limits = s.limits := by simp [State.disposeBuffers]
@[simp] theorem State.disposeBuffers_memory (s : State) (c : Context) (attached : Bool) :
    (s.disposeBuffers c attached).memory = s.memory := by simp [State.disposeBuffers]
@[simp] theorem State.disposeBuffers_results (s : State) (c : Context) (attached : Bool) :
    (s.disposeBuffers c attached).results = s.results := by simp [State.disposeBuffers]
@[simp] theorem State.disposeBuffers_reserved (s : State) (c : Context) (attached : Bool) :
    (s.disposeBuffers c attached).reserved = s.reserved := by simp [State.disposeBuffers]
@[simp] theorem State.disposeBuffers_timeCounter (s : State) (c : Context) (attached : Bool) :
    (s.disposeBuffers c attached).timeCounter = s.timeCounter := by simp [State.disposeBuffers]
@[simp] theorem State.disposeBuffers_prescaler10 (s : State) (c : Context) (attached : Bool) :
    (s.disposeBuffers c attached).prescaler10 = s.prescaler10 := by simp [State.disposeBuffers]
@[simp] theorem State.disposeBuffers_prescaler100 (s : State) (c : Context) (attached : Bool) :
    (s.disposeBuffers c attached).prescaler100 = s.prescaler100 := by simp [State.disposeBuffers]
@[simp] theorem State.disposeBuffers_tick10Given (s : State) (c : Context) (attached : Bool) :
    (s.disposeBuffers c attached).tick10Given = s.tick10Given := by simp [State.disposeBuffers]
@[simp] theorem State.disposeBuffers_tick100Given (s : State) (c : Context) (attached : Bool) :
    (s.disposeBuffers c attached).tick100Given = s.tick100Given := by simp [State.disposeBuffers]
@[simp] theorem State.disposeBuffers_pending (s : State) (c : Context) (attached : Bool) :
    (s.disposeBuffers c attached).pending = s.pending := by simp [State.disposeBuffers]

/-! ### State.close -/

@[simp] theorem State.close_resetHeld (s : State) (c : Context) (record : Option ResultRecord) (clearSync : Bool) :
    (s.close c record clearSync).resetHeld = s.resetHeld := by unfold State.close; cases clearSync <;> simp
@[simp] theorem State.close_de (s : State) (c : Context) (record : Option ResultRecord) (clearSync : Bool) :
    (s.close c record clearSync).de = s.de := by unfold State.close; cases clearSync <;> simp
@[simp] theorem State.close_port (s : State) (c : Context) (record : Option ResultRecord) (clearSync : Bool) :
    (s.close c record clearSync).port = s.port := by unfold State.close; cases clearSync <;> simp
@[simp] theorem State.close_readData (s : State) (c : Context) (record : Option ResultRecord) (clearSync : Bool) :
    (s.close c record clearSync).readData = s.readData := by unfold State.close; cases clearSync <;> simp
@[simp] theorem State.close_args (s : State) (c : Context) (record : Option ResultRecord) (clearSync : Bool) :
    (s.close c record clearSync).args = s.args := by unfold State.close; cases clearSync <;> simp
@[simp] theorem State.close_latch (s : State) (c : Context) (record : Option ResultRecord) (clearSync : Bool) :
    (s.close c record clearSync).latch = s.latch := by unfold State.close; cases clearSync <;> simp
@[simp] theorem State.close_commandCode (s : State) (c : Context) (record : Option ResultRecord) (clearSync : Bool) :
    (s.close c record clearSync).commandCode = s.commandCode := by unfold State.close; cases clearSync <;> simp
@[simp] theorem State.close_unit (s : State) (c : Context) (record : Option ResultRecord) (clearSync : Bool) :
    (s.close c record clearSync).unit = s.unit := by unfold State.close; cases clearSync <;> simp
@[simp] theorem State.close_cmdResult (s : State) (c : Context) (record : Option ResultRecord) (clearSync : Bool) :
    (s.close c record clearSync).cmdResult = s.cmdResult := by unfold State.close; cases clearSync <;> simp
@[simp] theorem State.close_replies (s : State) (c : Context) (record : Option ResultRecord) (clearSync : Bool) :
    (s.close c record clearSync).replies = s.replies := by unfold State.close; cases clearSync <;> simp
@[simp] theorem State.close_bufSelect (s : State) (c : Context) (record : Option ResultRecord) (clearSync : Bool) :
    (s.close c record clearSync).bufSelect = s.bufSelect := by unfold State.close; cases clearSync <;> simp
@[simp] theorem State.close_bufOffset (s : State) (c : Context) (record : Option ResultRecord) (clearSync : Bool) :
    (s.close c record clearSync).bufOffset = s.bufOffset := by unfold State.close; cases clearSync <;> simp
@[simp] theorem State.close_faultReg (s : State) (c : Context) (record : Option ResultRecord) (clearSync : Bool) :
    (s.close c record clearSync).faultReg = s.faultReg := by unfold State.close; cases clearSync <;> simp
@[simp] theorem State.close_timeSnapshot (s : State) (c : Context) (record : Option ResultRecord) (clearSync : Bool) :
    (s.close c record clearSync).timeSnapshot = s.timeSnapshot := by unfold State.close; cases clearSync <;> simp
@[simp] theorem State.close_taken (s : State) (c : Context) (record : Option ResultRecord) (clearSync : Bool) :
    (s.close c record clearSync).taken = s.taken := by unfold State.close; cases clearSync <;> simp
@[simp] theorem State.close_enableA (s : State) (c : Context) (record : Option ResultRecord) (clearSync : Bool) :
    (s.close c record clearSync).enableA = s.enableA := by unfold State.close; cases clearSync <;> simp
@[simp] theorem State.close_enableB (s : State) (c : Context) (record : Option ResultRecord) (clearSync : Bool) :
    (s.close c record clearSync).enableB = s.enableB := by unfold State.close; cases clearSync <;> simp
@[simp] theorem State.close_queue (s : State) (c : Context) (record : Option ResultRecord) (clearSync : Bool) :
    (s.close c record clearSync).queue = s.queue := by unfold State.close; cases clearSync <;> simp
@[simp] theorem State.close_ticketCounter (s : State) (c : Context) (record : Option ResultRecord) (clearSync : Bool) :
    (s.close c record clearSync).ticketCounter = s.ticketCounter := by unfold State.close; cases clearSync <;> simp
@[simp] theorem State.close_consecutive (s : State) (c : Context) (record : Option ResultRecord) (clearSync : Bool) :
    (s.close c record clearSync).consecutive = s.consecutive := by unfold State.close; cases clearSync <;> simp
@[simp] theorem State.close_stallActive (s : State) (c : Context) (record : Option ResultRecord) (clearSync : Bool) :
    (s.close c record clearSync).stallActive = s.stallActive := by unfold State.close; cases clearSync <;> simp
@[simp] theorem State.close_stallReported (s : State) (c : Context) (record : Option ResultRecord) (clearSync : Bool) :
    (s.close c record clearSync).stallReported = s.stallReported := by unfold State.close; cases clearSync <;> simp
@[simp] theorem State.close_pollPointer (s : State) (c : Context) (record : Option ResultRecord) (clearSync : Bool) :
    (s.close c record clearSync).pollPointer = s.pollPointer := by unfold State.close; cases clearSync <;> simp
@[simp] theorem State.close_mode (s : State) (c : Context) (record : Option ResultRecord) (clearSync : Bool) :
    (s.close c record clearSync).mode = s.mode := by unfold State.close; cases clearSync <;> simp
@[simp] theorem State.close_phase (s : State) (c : Context) (record : Option ResultRecord) (clearSync : Bool) :
    (s.close c record clearSync).phase = s.phase := by unfold State.close; cases clearSync <;> simp
@[simp] theorem State.close_context (s : State) (c : Context) (record : Option ResultRecord) (clearSync : Bool) :
    (s.close c record clearSync).context = none := by unfold State.close; cases clearSync <;> simp
@[simp] theorem State.close_tx (s : State) (c : Context) (record : Option ResultRecord) (clearSync : Bool) :
    (s.close c record clearSync).tx = s.tx := by unfold State.close; cases clearSync <;> simp
@[simp] theorem State.close_reception (s : State) (c : Context) (record : Option ResultRecord) (clearSync : Bool) :
    (s.close c record clearSync).reception = s.reception := by unfold State.close; cases clearSync <;> simp
@[simp] theorem State.close_timer (s : State) (c : Context) (record : Option ResultRecord) (clearSync : Bool) :
    (s.close c record clearSync).timer = s.timer := by unfold State.close; cases clearSync <;> simp
@[simp] theorem State.close_receiver (s : State) (c : Context) (record : Option ResultRecord) (clearSync : Bool) :
    (s.close c record clearSync).receiver = s.receiver := by unfold State.close; cases clearSync <;> simp
@[simp] theorem State.close_strayCharacters (s : State) (c : Context) (record : Option ResultRecord) (clearSync : Bool) :
    (s.close c record clearSync).strayCharacters = s.strayCharacters :=
  by unfold State.close; cases clearSync <;> simp
@[simp] theorem State.close_conflicts (s : State) (c : Context) (record : Option ResultRecord) (clearSync : Bool) :
    (s.close c record clearSync).conflicts = s.conflicts := by unfold State.close; cases clearSync <;> simp
@[simp] theorem State.close_breaks (s : State) (c : Context) (record : Option ResultRecord) (clearSync : Bool) :
    (s.close c record clearSync).breaks = s.breaks := by unfold State.close; cases clearSync <;> simp
@[simp] theorem State.close_lineConfig (s : State) (c : Context) (record : Option ResultRecord) (clearSync : Bool) :
    (s.close c record clearSync).lineConfig = s.lineConfig := by unfold State.close; cases clearSync <;> simp
@[simp] theorem State.close_limits (s : State) (c : Context) (record : Option ResultRecord) (clearSync : Bool) :
    (s.close c record clearSync).limits = s.limits := by unfold State.close; cases clearSync <;> simp
@[simp] theorem State.close_memory (s : State) (c : Context) (record : Option ResultRecord) (clearSync : Bool) :
    (s.close c record clearSync).memory = s.memory := by unfold State.close; cases clearSync <;> simp
@[simp] theorem State.close_reserved (s : State) (c : Context) (record : Option ResultRecord) (clearSync : Bool) :
    (s.close c record clearSync).reserved = false := by unfold State.close; cases clearSync <;> simp
@[simp] theorem State.close_timeCounter (s : State) (c : Context) (record : Option ResultRecord) (clearSync : Bool) :
    (s.close c record clearSync).timeCounter = s.timeCounter := by unfold State.close; cases clearSync <;> simp
@[simp] theorem State.close_prescaler10 (s : State) (c : Context) (record : Option ResultRecord) (clearSync : Bool) :
    (s.close c record clearSync).prescaler10 = s.prescaler10 := by unfold State.close; cases clearSync <;> simp
@[simp] theorem State.close_prescaler100 (s : State) (c : Context) (record : Option ResultRecord) (clearSync : Bool) :
    (s.close c record clearSync).prescaler100 = s.prescaler100 := by unfold State.close; cases clearSync <;> simp
@[simp] theorem State.close_tick10Given (s : State) (c : Context) (record : Option ResultRecord) (clearSync : Bool) :
    (s.close c record clearSync).tick10Given = s.tick10Given := by unfold State.close; cases clearSync <;> simp
@[simp] theorem State.close_tick100Given (s : State) (c : Context) (record : Option ResultRecord) (clearSync : Bool) :
    (s.close c record clearSync).tick100Given = s.tick100Given := by unfold State.close; cases clearSync <;> simp
@[simp] theorem State.close_pending (s : State) (c : Context) (record : Option ResultRecord) (clearSync : Bool) :
    (s.close c record clearSync).pending = s.pending := by unfold State.close; cases clearSync <;> simp

/-! ### State.tick10 -/

@[simp] theorem State.tick10_resetHeld (s : State) :
    (s.tick10).resetHeld = s.resetHeld := by unfold State.tick10; split <;> rfl
@[simp] theorem State.tick10_de (s : State) : (s.tick10).de = s.de := by unfold State.tick10; split <;> rfl
@[simp] theorem State.tick10_port (s : State) : (s.tick10).port = s.port := by unfold State.tick10; split <;> rfl
@[simp] theorem State.tick10_readData (s : State) :
    (s.tick10).readData = s.readData := by unfold State.tick10; split <;> rfl
@[simp] theorem State.tick10_args (s : State) : (s.tick10).args = s.args := by unfold State.tick10; split <;> rfl
@[simp] theorem State.tick10_latch (s : State) : (s.tick10).latch = s.latch := by unfold State.tick10; split <;> rfl
@[simp] theorem State.tick10_commandCode (s : State) :
    (s.tick10).commandCode = s.commandCode := by unfold State.tick10; split <;> rfl
@[simp] theorem State.tick10_unit (s : State) : (s.tick10).unit = s.unit := by unfold State.tick10; split <;> rfl
@[simp] theorem State.tick10_cmdResult (s : State) :
    (s.tick10).cmdResult = s.cmdResult := by unfold State.tick10; split <;> rfl
@[simp] theorem State.tick10_replies (s : State) :
    (s.tick10).replies = s.replies := by unfold State.tick10; split <;> rfl
@[simp] theorem State.tick10_bufSelect (s : State) :
    (s.tick10).bufSelect = s.bufSelect := by unfold State.tick10; split <;> rfl
@[simp] theorem State.tick10_bufOffset (s : State) :
    (s.tick10).bufOffset = s.bufOffset := by unfold State.tick10; split <;> rfl
@[simp] theorem State.tick10_faultReg (s : State) :
    (s.tick10).faultReg = s.faultReg := by unfold State.tick10; split <;> rfl
@[simp] theorem State.tick10_timeSnapshot (s : State) :
    (s.tick10).timeSnapshot = s.timeSnapshot := by unfold State.tick10; split <;> rfl
@[simp] theorem State.tick10_taken (s : State) : (s.tick10).taken = s.taken := by unfold State.tick10; split <;> rfl
@[simp] theorem State.tick10_events (s : State) : (s.tick10).events = s.events := by unfold State.tick10; split <;> rfl
@[simp] theorem State.tick10_enableA (s : State) :
    (s.tick10).enableA = s.enableA := by unfold State.tick10; split <;> rfl
@[simp] theorem State.tick10_enableB (s : State) :
    (s.tick10).enableB = s.enableB := by unfold State.tick10; split <;> rfl
@[simp] theorem State.tick10_queue (s : State) : (s.tick10).queue = s.queue := by unfold State.tick10; split <;> rfl
@[simp] theorem State.tick10_ticketCounter (s : State) :
    (s.tick10).ticketCounter = s.ticketCounter := by unfold State.tick10; split <;> rfl
@[simp] theorem State.tick10_consecutive (s : State) :
    (s.tick10).consecutive = s.consecutive := by unfold State.tick10; split <;> rfl
@[simp] theorem State.tick10_stallActive (s : State) :
    (s.tick10).stallActive = s.stallActive := by unfold State.tick10; split <;> rfl
@[simp] theorem State.tick10_stallReported (s : State) :
    (s.tick10).stallReported = s.stallReported := by unfold State.tick10; split <;> rfl
@[simp] theorem State.tick10_pollPointer (s : State) :
    (s.tick10).pollPointer = s.pollPointer := by unfold State.tick10; split <;> rfl
@[simp] theorem State.tick10_mode (s : State) : (s.tick10).mode = s.mode := by unfold State.tick10; split <;> rfl
@[simp] theorem State.tick10_phase (s : State) : (s.tick10).phase = s.phase := by unfold State.tick10; split <;> rfl
@[simp] theorem State.tick10_context (s : State) :
    (s.tick10).context = s.context := by unfold State.tick10; split <;> rfl
@[simp] theorem State.tick10_tx (s : State) : (s.tick10).tx = s.tx := by unfold State.tick10; split <;> rfl
@[simp] theorem State.tick10_reception (s : State) :
    (s.tick10).reception = s.reception := by unfold State.tick10; split <;> rfl
@[simp] theorem State.tick10_timer (s : State) : (s.tick10).timer = s.timer := by unfold State.tick10; split <;> rfl
@[simp] theorem State.tick10_receiver (s : State) :
    (s.tick10).receiver = s.receiver := by unfold State.tick10; split <;> rfl
@[simp] theorem State.tick10_strayCharacters (s : State) :
    (s.tick10).strayCharacters = s.strayCharacters := by unfold State.tick10; split <;> rfl
@[simp] theorem State.tick10_conflicts (s : State) :
    (s.tick10).conflicts = s.conflicts := by unfold State.tick10; split <;> rfl
@[simp] theorem State.tick10_breaks (s : State) : (s.tick10).breaks = s.breaks := by unfold State.tick10; split <;> rfl
@[simp] theorem State.tick10_lineConfig (s : State) :
    (s.tick10).lineConfig = s.lineConfig := by unfold State.tick10; split <;> rfl
@[simp] theorem State.tick10_limits (s : State) : (s.tick10).limits = s.limits := by unfold State.tick10; split <;> rfl
@[simp] theorem State.tick10_owners (s : State) : (s.tick10).owners = s.owners := by unfold State.tick10; split <;> rfl
@[simp] theorem State.tick10_freeList (s : State) :
    (s.tick10).freeList = s.freeList := by unfold State.tick10; split <;> rfl
@[simp] theorem State.tick10_memory (s : State) : (s.tick10).memory = s.memory := by unfold State.tick10; split <;> rfl
@[simp] theorem State.tick10_results (s : State) :
    (s.tick10).results = s.results := by unfold State.tick10; split <;> rfl
@[simp] theorem State.tick10_reserved (s : State) :
    (s.tick10).reserved = s.reserved := by unfold State.tick10; split <;> rfl
@[simp] theorem State.tick10_timeCounter (s : State) :
    (s.tick10).timeCounter = s.timeCounter := by unfold State.tick10; split <;> rfl
@[simp] theorem State.tick10_prescaler10 (s : State) :
    (s.tick10).prescaler10 = s.prescaler10 := by unfold State.tick10; split <;> rfl
@[simp] theorem State.tick10_pending (s : State) :
    (s.tick10).pending = s.pending := by unfold State.tick10; split <;> rfl

/-! ### State.tick100 -/

@[simp] theorem State.tick100_resetHeld (s : State) :
    (s.tick100).resetHeld = s.resetHeld := by unfold State.tick100; split <;> rfl
@[simp] theorem State.tick100_de (s : State) : (s.tick100).de = s.de := by unfold State.tick100; split <;> rfl
@[simp] theorem State.tick100_port (s : State) : (s.tick100).port = s.port := by unfold State.tick100; split <;> rfl
@[simp] theorem State.tick100_readData (s : State) :
    (s.tick100).readData = s.readData := by unfold State.tick100; split <;> rfl
@[simp] theorem State.tick100_args (s : State) : (s.tick100).args = s.args := by unfold State.tick100; split <;> rfl
@[simp] theorem State.tick100_latch (s : State) : (s.tick100).latch = s.latch := by unfold State.tick100; split <;> rfl
@[simp] theorem State.tick100_commandCode (s : State) :
    (s.tick100).commandCode = s.commandCode := by unfold State.tick100; split <;> rfl
@[simp] theorem State.tick100_unit (s : State) : (s.tick100).unit = s.unit := by unfold State.tick100; split <;> rfl
@[simp] theorem State.tick100_cmdResult (s : State) :
    (s.tick100).cmdResult = s.cmdResult := by unfold State.tick100; split <;> rfl
@[simp] theorem State.tick100_replies (s : State) :
    (s.tick100).replies = s.replies := by unfold State.tick100; split <;> rfl
@[simp] theorem State.tick100_bufSelect (s : State) :
    (s.tick100).bufSelect = s.bufSelect := by unfold State.tick100; split <;> rfl
@[simp] theorem State.tick100_bufOffset (s : State) :
    (s.tick100).bufOffset = s.bufOffset := by unfold State.tick100; split <;> rfl
@[simp] theorem State.tick100_faultReg (s : State) :
    (s.tick100).faultReg = s.faultReg := by unfold State.tick100; split <;> rfl
@[simp] theorem State.tick100_timeSnapshot (s : State) :
    (s.tick100).timeSnapshot = s.timeSnapshot := by unfold State.tick100; split <;> rfl
@[simp] theorem State.tick100_taken (s : State) : (s.tick100).taken = s.taken := by unfold State.tick100; split <;> rfl
@[simp] theorem State.tick100_events (s : State) :
    (s.tick100).events = s.events := by unfold State.tick100; split <;> rfl
@[simp] theorem State.tick100_enableA (s : State) :
    (s.tick100).enableA = s.enableA := by unfold State.tick100; split <;> rfl
@[simp] theorem State.tick100_enableB (s : State) :
    (s.tick100).enableB = s.enableB := by unfold State.tick100; split <;> rfl
@[simp] theorem State.tick100_queue (s : State) : (s.tick100).queue = s.queue := by unfold State.tick100; split <;> rfl
@[simp] theorem State.tick100_ticketCounter (s : State) :
    (s.tick100).ticketCounter = s.ticketCounter := by unfold State.tick100; split <;> rfl
@[simp] theorem State.tick100_consecutive (s : State) :
    (s.tick100).consecutive = s.consecutive := by unfold State.tick100; split <;> rfl
@[simp] theorem State.tick100_stallActive (s : State) :
    (s.tick100).stallActive = s.stallActive := by unfold State.tick100; split <;> rfl
@[simp] theorem State.tick100_stallReported (s : State) :
    (s.tick100).stallReported = s.stallReported := by unfold State.tick100; split <;> rfl
@[simp] theorem State.tick100_pollPointer (s : State) :
    (s.tick100).pollPointer = s.pollPointer := by unfold State.tick100; split <;> rfl
@[simp] theorem State.tick100_mode (s : State) : (s.tick100).mode = s.mode := by unfold State.tick100; split <;> rfl
@[simp] theorem State.tick100_phase (s : State) : (s.tick100).phase = s.phase := by unfold State.tick100; split <;> rfl
@[simp] theorem State.tick100_context (s : State) :
    (s.tick100).context = s.context := by unfold State.tick100; split <;> rfl
@[simp] theorem State.tick100_tx (s : State) : (s.tick100).tx = s.tx := by unfold State.tick100; split <;> rfl
@[simp] theorem State.tick100_reception (s : State) :
    (s.tick100).reception = s.reception := by unfold State.tick100; split <;> rfl
@[simp] theorem State.tick100_timer (s : State) : (s.tick100).timer = s.timer := by unfold State.tick100; split <;> rfl
@[simp] theorem State.tick100_receiver (s : State) :
    (s.tick100).receiver = s.receiver := by unfold State.tick100; split <;> rfl
@[simp] theorem State.tick100_strayCharacters (s : State) :
    (s.tick100).strayCharacters = s.strayCharacters := by unfold State.tick100; split <;> rfl
@[simp] theorem State.tick100_conflicts (s : State) :
    (s.tick100).conflicts = s.conflicts := by unfold State.tick100; split <;> rfl
@[simp] theorem State.tick100_breaks (s : State) :
    (s.tick100).breaks = s.breaks := by unfold State.tick100; split <;> rfl
@[simp] theorem State.tick100_lineConfig (s : State) :
    (s.tick100).lineConfig = s.lineConfig := by unfold State.tick100; split <;> rfl
@[simp] theorem State.tick100_limits (s : State) :
    (s.tick100).limits = s.limits := by unfold State.tick100; split <;> rfl
@[simp] theorem State.tick100_owners (s : State) :
    (s.tick100).owners = s.owners := by unfold State.tick100; split <;> rfl
@[simp] theorem State.tick100_freeList (s : State) :
    (s.tick100).freeList = s.freeList := by unfold State.tick100; split <;> rfl
@[simp] theorem State.tick100_memory (s : State) :
    (s.tick100).memory = s.memory := by unfold State.tick100; split <;> rfl
@[simp] theorem State.tick100_results (s : State) :
    (s.tick100).results = s.results := by unfold State.tick100; split <;> rfl
@[simp] theorem State.tick100_reserved (s : State) :
    (s.tick100).reserved = s.reserved := by unfold State.tick100; split <;> rfl
@[simp] theorem State.tick100_timeCounter (s : State) :
    (s.tick100).timeCounter = s.timeCounter := by unfold State.tick100; split <;> rfl
@[simp] theorem State.tick100_prescaler10 (s : State) :
    (s.tick100).prescaler10 = s.prescaler10 := by unfold State.tick100; split <;> rfl
@[simp] theorem State.tick100_prescaler100 (s : State) :
    (s.tick100).prescaler100 = s.prescaler100 := by unfold State.tick100; split <;> rfl
@[simp] theorem State.tick100_tick10Given (s : State) :
    (s.tick100).tick10Given = s.tick10Given := by unfold State.tick100; split <;> rfl
@[simp] theorem State.tick100_pending (s : State) :
    (s.tick100).pending = s.pending := by unfold State.tick100; split <;> rfl

/-! ### State.takeGivenTicks -/

@[simp] theorem State.takeGivenTicks_resetHeld (s : State) :
    (s.takeGivenTicks).resetHeld = s.resetHeld := by simp [State.takeGivenTicks]
@[simp] theorem State.takeGivenTicks_de (s : State) : (s.takeGivenTicks).de = s.de := by simp [State.takeGivenTicks]
@[simp] theorem State.takeGivenTicks_port (s : State) :
    (s.takeGivenTicks).port = s.port := by simp [State.takeGivenTicks]
@[simp] theorem State.takeGivenTicks_readData (s : State) :
    (s.takeGivenTicks).readData = s.readData := by simp [State.takeGivenTicks]
@[simp] theorem State.takeGivenTicks_args (s : State) :
    (s.takeGivenTicks).args = s.args := by simp [State.takeGivenTicks]
@[simp] theorem State.takeGivenTicks_latch (s : State) :
    (s.takeGivenTicks).latch = s.latch := by simp [State.takeGivenTicks]
@[simp] theorem State.takeGivenTicks_commandCode (s : State) :
    (s.takeGivenTicks).commandCode = s.commandCode := by simp [State.takeGivenTicks]
@[simp] theorem State.takeGivenTicks_unit (s : State) :
    (s.takeGivenTicks).unit = s.unit := by simp [State.takeGivenTicks]
@[simp] theorem State.takeGivenTicks_cmdResult (s : State) :
    (s.takeGivenTicks).cmdResult = s.cmdResult := by simp [State.takeGivenTicks]
@[simp] theorem State.takeGivenTicks_replies (s : State) :
    (s.takeGivenTicks).replies = s.replies := by simp [State.takeGivenTicks]
@[simp] theorem State.takeGivenTicks_bufSelect (s : State) :
    (s.takeGivenTicks).bufSelect = s.bufSelect := by simp [State.takeGivenTicks]
@[simp] theorem State.takeGivenTicks_bufOffset (s : State) :
    (s.takeGivenTicks).bufOffset = s.bufOffset := by simp [State.takeGivenTicks]
@[simp] theorem State.takeGivenTicks_faultReg (s : State) :
    (s.takeGivenTicks).faultReg = s.faultReg := by simp [State.takeGivenTicks]
@[simp] theorem State.takeGivenTicks_timeSnapshot (s : State) :
    (s.takeGivenTicks).timeSnapshot = s.timeSnapshot := by simp [State.takeGivenTicks]
@[simp] theorem State.takeGivenTicks_taken (s : State) :
    (s.takeGivenTicks).taken = s.taken := by simp [State.takeGivenTicks]
@[simp] theorem State.takeGivenTicks_events (s : State) :
    (s.takeGivenTicks).events = s.events := by simp [State.takeGivenTicks]
@[simp] theorem State.takeGivenTicks_enableA (s : State) :
    (s.takeGivenTicks).enableA = s.enableA := by simp [State.takeGivenTicks]
@[simp] theorem State.takeGivenTicks_enableB (s : State) :
    (s.takeGivenTicks).enableB = s.enableB := by simp [State.takeGivenTicks]
@[simp] theorem State.takeGivenTicks_queue (s : State) :
    (s.takeGivenTicks).queue = s.queue := by simp [State.takeGivenTicks]
@[simp] theorem State.takeGivenTicks_ticketCounter (s : State) :
    (s.takeGivenTicks).ticketCounter = s.ticketCounter := by simp [State.takeGivenTicks]
@[simp] theorem State.takeGivenTicks_consecutive (s : State) :
    (s.takeGivenTicks).consecutive = s.consecutive := by simp [State.takeGivenTicks]
@[simp] theorem State.takeGivenTicks_stallActive (s : State) :
    (s.takeGivenTicks).stallActive = s.stallActive := by simp [State.takeGivenTicks]
@[simp] theorem State.takeGivenTicks_stallReported (s : State) :
    (s.takeGivenTicks).stallReported = s.stallReported := by simp [State.takeGivenTicks]
@[simp] theorem State.takeGivenTicks_pollPointer (s : State) :
    (s.takeGivenTicks).pollPointer = s.pollPointer := by simp [State.takeGivenTicks]
@[simp] theorem State.takeGivenTicks_mode (s : State) :
    (s.takeGivenTicks).mode = s.mode := by simp [State.takeGivenTicks]
@[simp] theorem State.takeGivenTicks_phase (s : State) :
    (s.takeGivenTicks).phase = s.phase := by simp [State.takeGivenTicks]
@[simp] theorem State.takeGivenTicks_context (s : State) :
    (s.takeGivenTicks).context = s.context := by simp [State.takeGivenTicks]
@[simp] theorem State.takeGivenTicks_tx (s : State) : (s.takeGivenTicks).tx = s.tx := by simp [State.takeGivenTicks]
@[simp] theorem State.takeGivenTicks_reception (s : State) :
    (s.takeGivenTicks).reception = s.reception := by simp [State.takeGivenTicks]
@[simp] theorem State.takeGivenTicks_timer (s : State) :
    (s.takeGivenTicks).timer = s.timer := by simp [State.takeGivenTicks]
@[simp] theorem State.takeGivenTicks_receiver (s : State) :
    (s.takeGivenTicks).receiver = s.receiver := by simp [State.takeGivenTicks]
@[simp] theorem State.takeGivenTicks_strayCharacters (s : State) :
    (s.takeGivenTicks).strayCharacters = s.strayCharacters := by simp [State.takeGivenTicks]
@[simp] theorem State.takeGivenTicks_conflicts (s : State) :
    (s.takeGivenTicks).conflicts = s.conflicts := by simp [State.takeGivenTicks]
@[simp] theorem State.takeGivenTicks_breaks (s : State) :
    (s.takeGivenTicks).breaks = s.breaks := by simp [State.takeGivenTicks]
@[simp] theorem State.takeGivenTicks_lineConfig (s : State) :
    (s.takeGivenTicks).lineConfig = s.lineConfig := by simp [State.takeGivenTicks]
@[simp] theorem State.takeGivenTicks_limits (s : State) :
    (s.takeGivenTicks).limits = s.limits := by simp [State.takeGivenTicks]
@[simp] theorem State.takeGivenTicks_owners (s : State) :
    (s.takeGivenTicks).owners = s.owners := by simp [State.takeGivenTicks]
@[simp] theorem State.takeGivenTicks_freeList (s : State) :
    (s.takeGivenTicks).freeList = s.freeList := by simp [State.takeGivenTicks]
@[simp] theorem State.takeGivenTicks_memory (s : State) :
    (s.takeGivenTicks).memory = s.memory := by simp [State.takeGivenTicks]
@[simp] theorem State.takeGivenTicks_results (s : State) :
    (s.takeGivenTicks).results = s.results := by simp [State.takeGivenTicks]
@[simp] theorem State.takeGivenTicks_reserved (s : State) :
    (s.takeGivenTicks).reserved = s.reserved := by simp [State.takeGivenTicks]
@[simp] theorem State.takeGivenTicks_timeCounter (s : State) :
    (s.takeGivenTicks).timeCounter = s.timeCounter := by simp [State.takeGivenTicks]
@[simp] theorem State.takeGivenTicks_prescaler10 (s : State) :
    (s.takeGivenTicks).prescaler10 = s.prescaler10 := by simp [State.takeGivenTicks]
@[simp] theorem State.takeGivenTicks_pending (s : State) :
    (s.takeGivenTicks).pending = s.pending := by simp [State.takeGivenTicks]

/-! ### State.riseTime -/

@[simp] theorem State.riseTime_resetHeld (s : State) : (s.riseTime).resetHeld = s.resetHeld := rfl
@[simp] theorem State.riseTime_de (s : State) : (s.riseTime).de = s.de := rfl
@[simp] theorem State.riseTime_port (s : State) : (s.riseTime).port = s.port := rfl
@[simp] theorem State.riseTime_readData (s : State) : (s.riseTime).readData = s.readData := rfl
@[simp] theorem State.riseTime_args (s : State) : (s.riseTime).args = s.args := rfl
@[simp] theorem State.riseTime_latch (s : State) : (s.riseTime).latch = s.latch := rfl
@[simp] theorem State.riseTime_commandCode (s : State) : (s.riseTime).commandCode = s.commandCode := rfl
@[simp] theorem State.riseTime_unit (s : State) : (s.riseTime).unit = s.unit := rfl
@[simp] theorem State.riseTime_cmdResult (s : State) : (s.riseTime).cmdResult = s.cmdResult := rfl
@[simp] theorem State.riseTime_replies (s : State) : (s.riseTime).replies = s.replies := rfl
@[simp] theorem State.riseTime_bufSelect (s : State) : (s.riseTime).bufSelect = s.bufSelect := rfl
@[simp] theorem State.riseTime_bufOffset (s : State) : (s.riseTime).bufOffset = s.bufOffset := rfl
@[simp] theorem State.riseTime_faultReg (s : State) : (s.riseTime).faultReg = s.faultReg := rfl
@[simp] theorem State.riseTime_timeSnapshot (s : State) : (s.riseTime).timeSnapshot = s.timeSnapshot := rfl
@[simp] theorem State.riseTime_taken (s : State) : (s.riseTime).taken = s.taken := rfl
@[simp] theorem State.riseTime_events (s : State) : (s.riseTime).events = s.events := rfl
@[simp] theorem State.riseTime_enableA (s : State) : (s.riseTime).enableA = s.enableA := rfl
@[simp] theorem State.riseTime_enableB (s : State) : (s.riseTime).enableB = s.enableB := rfl
@[simp] theorem State.riseTime_stations (s : State) : (s.riseTime).stations = s.stations := rfl
@[simp] theorem State.riseTime_queue (s : State) : (s.riseTime).queue = s.queue := rfl
@[simp] theorem State.riseTime_ticketCounter (s : State) : (s.riseTime).ticketCounter = s.ticketCounter := rfl
@[simp] theorem State.riseTime_consecutive (s : State) : (s.riseTime).consecutive = s.consecutive := rfl
@[simp] theorem State.riseTime_stallActive (s : State) : (s.riseTime).stallActive = s.stallActive := rfl
@[simp] theorem State.riseTime_stallReported (s : State) : (s.riseTime).stallReported = s.stallReported := rfl
@[simp] theorem State.riseTime_pollPointer (s : State) : (s.riseTime).pollPointer = s.pollPointer := rfl
@[simp] theorem State.riseTime_mode (s : State) : (s.riseTime).mode = s.mode := rfl
@[simp] theorem State.riseTime_phase (s : State) : (s.riseTime).phase = s.phase := rfl
@[simp] theorem State.riseTime_context (s : State) : (s.riseTime).context = s.context := rfl
@[simp] theorem State.riseTime_tx (s : State) : (s.riseTime).tx = s.tx := rfl
@[simp] theorem State.riseTime_reception (s : State) : (s.riseTime).reception = s.reception := rfl
@[simp] theorem State.riseTime_timer (s : State) : (s.riseTime).timer = s.timer := rfl
@[simp] theorem State.riseTime_receiver (s : State) : (s.riseTime).receiver = s.receiver := rfl
@[simp] theorem State.riseTime_strayCharacters (s : State) : (s.riseTime).strayCharacters = s.strayCharacters := rfl
@[simp] theorem State.riseTime_conflicts (s : State) : (s.riseTime).conflicts = s.conflicts := rfl
@[simp] theorem State.riseTime_breaks (s : State) : (s.riseTime).breaks = s.breaks := rfl
@[simp] theorem State.riseTime_lineConfig (s : State) : (s.riseTime).lineConfig = s.lineConfig := rfl
@[simp] theorem State.riseTime_limits (s : State) : (s.riseTime).limits = s.limits := rfl
@[simp] theorem State.riseTime_owners (s : State) : (s.riseTime).owners = s.owners := rfl
@[simp] theorem State.riseTime_freeList (s : State) : (s.riseTime).freeList = s.freeList := rfl
@[simp] theorem State.riseTime_memory (s : State) : (s.riseTime).memory = s.memory := rfl
@[simp] theorem State.riseTime_results (s : State) : (s.riseTime).results = s.results := rfl
@[simp] theorem State.riseTime_reserved (s : State) : (s.riseTime).reserved = s.reserved := rfl
@[simp] theorem State.riseTime_timeCounter (s : State) : (s.riseTime).timeCounter = s.timeCounter + 1 := rfl
@[simp] theorem State.riseTime_prescaler10 (s : State) : (s.riseTime).prescaler10 = prescale s.prescaler10 := rfl
@[simp] theorem State.riseTime_prescaler100 (s : State) : (s.riseTime).prescaler100 = s.prescaler100 := rfl
@[simp] theorem State.riseTime_tick10Given (s : State) :
    (s.riseTime).tick10Given = prescalerReturns s.prescaler10 := rfl
@[simp] theorem State.riseTime_tick100Given (s : State) : (s.riseTime).tick100Given = s.tick100Given := rfl
@[simp] theorem State.riseTime_pending (s : State) : (s.riseTime).pending = s.pending := rfl

/-! ### State.beginWrite -/

@[simp] theorem State.beginWrite_resetHeld (s : State) (p : Pins) : (s.beginWrite p).resetHeld = s.resetHeld := rfl
@[simp] theorem State.beginWrite_de (s : State) (p : Pins) : (s.beginWrite p).de = s.de := rfl
@[simp] theorem State.beginWrite_port (s : State) (p : Pins) :
    (s.beginWrite p).port = p.during (.write s.events) := rfl
@[simp] theorem State.beginWrite_readData (s : State) (p : Pins) : (s.beginWrite p).readData = s.readData := rfl
@[simp] theorem State.beginWrite_args (s : State) (p : Pins) : (s.beginWrite p).args = s.args := rfl
@[simp] theorem State.beginWrite_latch (s : State) (p : Pins) : (s.beginWrite p).latch = s.latch := rfl
@[simp] theorem State.beginWrite_commandCode (s : State) (p : Pins) :
    (s.beginWrite p).commandCode = s.commandCode := rfl
@[simp] theorem State.beginWrite_unit (s : State) (p : Pins) : (s.beginWrite p).unit = s.unit := rfl
@[simp] theorem State.beginWrite_cmdResult (s : State) (p : Pins) : (s.beginWrite p).cmdResult = s.cmdResult := rfl
@[simp] theorem State.beginWrite_replies (s : State) (p : Pins) : (s.beginWrite p).replies = s.replies := rfl
@[simp] theorem State.beginWrite_bufSelect (s : State) (p : Pins) : (s.beginWrite p).bufSelect = s.bufSelect := rfl
@[simp] theorem State.beginWrite_bufOffset (s : State) (p : Pins) : (s.beginWrite p).bufOffset = s.bufOffset := rfl
@[simp] theorem State.beginWrite_faultReg (s : State) (p : Pins) : (s.beginWrite p).faultReg = s.faultReg := rfl
@[simp] theorem State.beginWrite_timeSnapshot (s : State) (p : Pins) :
    (s.beginWrite p).timeSnapshot = s.timeSnapshot := rfl
@[simp] theorem State.beginWrite_taken (s : State) (p : Pins) : (s.beginWrite p).taken = s.taken := rfl
@[simp] theorem State.beginWrite_events (s : State) (p : Pins) : (s.beginWrite p).events = Events.clear := rfl
@[simp] theorem State.beginWrite_enableA (s : State) (p : Pins) : (s.beginWrite p).enableA = s.enableA := rfl
@[simp] theorem State.beginWrite_enableB (s : State) (p : Pins) : (s.beginWrite p).enableB = s.enableB := rfl
@[simp] theorem State.beginWrite_stations (s : State) (p : Pins) : (s.beginWrite p).stations = s.stations := rfl
@[simp] theorem State.beginWrite_queue (s : State) (p : Pins) : (s.beginWrite p).queue = s.queue := rfl
@[simp] theorem State.beginWrite_ticketCounter (s : State) (p : Pins) :
    (s.beginWrite p).ticketCounter = s.ticketCounter := rfl
@[simp] theorem State.beginWrite_consecutive (s : State) (p : Pins) :
    (s.beginWrite p).consecutive = s.consecutive := rfl
@[simp] theorem State.beginWrite_stallActive (s : State) (p : Pins) :
    (s.beginWrite p).stallActive = s.stallActive := rfl
@[simp] theorem State.beginWrite_stallReported (s : State) (p : Pins) :
    (s.beginWrite p).stallReported = s.stallReported := rfl
@[simp] theorem State.beginWrite_pollPointer (s : State) (p : Pins) :
    (s.beginWrite p).pollPointer = s.pollPointer := rfl
@[simp] theorem State.beginWrite_mode (s : State) (p : Pins) : (s.beginWrite p).mode = s.mode := rfl
@[simp] theorem State.beginWrite_phase (s : State) (p : Pins) : (s.beginWrite p).phase = s.phase := rfl
@[simp] theorem State.beginWrite_context (s : State) (p : Pins) : (s.beginWrite p).context = s.context := rfl
@[simp] theorem State.beginWrite_tx (s : State) (p : Pins) : (s.beginWrite p).tx = s.tx := rfl
@[simp] theorem State.beginWrite_reception (s : State) (p : Pins) : (s.beginWrite p).reception = s.reception := rfl
@[simp] theorem State.beginWrite_timer (s : State) (p : Pins) : (s.beginWrite p).timer = s.timer := rfl
@[simp] theorem State.beginWrite_receiver (s : State) (p : Pins) : (s.beginWrite p).receiver = s.receiver := rfl
@[simp] theorem State.beginWrite_strayCharacters (s : State) (p : Pins) :
    (s.beginWrite p).strayCharacters = s.strayCharacters := rfl
@[simp] theorem State.beginWrite_conflicts (s : State) (p : Pins) : (s.beginWrite p).conflicts = s.conflicts := rfl
@[simp] theorem State.beginWrite_breaks (s : State) (p : Pins) : (s.beginWrite p).breaks = s.breaks := rfl
@[simp] theorem State.beginWrite_lineConfig (s : State) (p : Pins) : (s.beginWrite p).lineConfig = s.lineConfig := rfl
@[simp] theorem State.beginWrite_limits (s : State) (p : Pins) : (s.beginWrite p).limits = s.limits := rfl
@[simp] theorem State.beginWrite_owners (s : State) (p : Pins) : (s.beginWrite p).owners = s.owners := rfl
@[simp] theorem State.beginWrite_freeList (s : State) (p : Pins) : (s.beginWrite p).freeList = s.freeList := rfl
@[simp] theorem State.beginWrite_memory (s : State) (p : Pins) : (s.beginWrite p).memory = s.memory := rfl
@[simp] theorem State.beginWrite_results (s : State) (p : Pins) : (s.beginWrite p).results = s.results := rfl
@[simp] theorem State.beginWrite_reserved (s : State) (p : Pins) : (s.beginWrite p).reserved = s.reserved := rfl
@[simp] theorem State.beginWrite_timeCounter (s : State) (p : Pins) :
    (s.beginWrite p).timeCounter = s.timeCounter := rfl
@[simp] theorem State.beginWrite_prescaler10 (s : State) (p : Pins) :
    (s.beginWrite p).prescaler10 = s.prescaler10 := rfl
@[simp] theorem State.beginWrite_prescaler100 (s : State) (p : Pins) :
    (s.beginWrite p).prescaler100 = s.prescaler100 := rfl
@[simp] theorem State.beginWrite_tick10Given (s : State) (p : Pins) :
    (s.beginWrite p).tick10Given = s.tick10Given := rfl
@[simp] theorem State.beginWrite_tick100Given (s : State) (p : Pins) :
    (s.beginWrite p).tick100Given = s.tick100Given := rfl
@[simp] theorem State.beginWrite_pending (s : State) (p : Pins) : (s.beginWrite p).pending = s.pending := rfl

end Sys2Proof.Machine
end

