-- ==== Sys2Proof/Laws/Port.lean ====
section
/-! SUPPORT. The latched flags one by one, the flags while a write access holds raises back, what a change of the host's
pins can do, and the ticks of the Timebase that are given and taken. -/

namespace Sys2Proof.Machine

/-! ## The latched flags (R157, R158) -/

/-- Two sets of flags that agree on every flag are equal. -/
theorem Events.ext_get {a b : Events} (h : ∀ f : LatchedFlag, a.get f = b.get f) : a = b := by
  cases a
  cases b
  have h0 := h .commandDone
  have h1 := h .commandOverrun
  have h2 := h .resultsHigh
  have h3 := h .requestSpace
  have h4 := h .poolEmpty
  have h5 := h .stall
  have h6 := h .lineStopped
  have h7 := h .conflict
  have h8 := h .lineBreak
  have h9 := h .accessFault
  simp only [Events.get] at *
  simp [*]

/-- No flag of the cleared set is set. -/
@[simp] theorem Events.get_clear (f : LatchedFlag) : Events.clear.get f = false := by
  cases f <;> rfl

/-- A raise sets its flag and no other (R157). -/
@[simp] theorem Events.get_raise (e : Events) (f g : LatchedFlag) :
    (e.raise f).get g = (decide (g = f) || e.get g) := by
  cases f <;> cases g <;> simp [Events.raise, Events.get]

/-- A write clears the flags of its bank whose bits are 1 (R158). -/
@[simp] theorem Events.get_writeOneToClear (e : Events) (bank : EventBank) (value : Byte) (f : LatchedFlag) :
    (e.writeOneToClear bank value).get f =
      (e.get f && !(decide (f.place.1 = bank) && value.getLsbD f.place.2)) := by
  cases bank <;> cases f <;> simp [Events.writeOneToClear, Events.get, LatchedFlag.place]

/-- A flag of two sets together. -/
@[simp] theorem Events.get_merge (e held : Events) (f : LatchedFlag) :
    (e.merge held).get f = (e.get f || held.get f) := by
  cases f <;> rfl

/-- During a write access the flags stand as they were at its beginning (R158). -/
@[simp] theorem State.flags_of_write {s : State} {standing : Events} (h : s.port.access = .write standing) :
    s.flags = standing := by
  simp [State.flags, h]

/-- Outside a write access the flags are the field's. -/
theorem State.flags_of_not_write {s : State} (h : ∀ standing : Events, s.port.access ≠ .write standing) :
    s.flags = s.events := by
  unfold State.flags
  split
  · rename_i standing hw
    exact absurd hw (h standing)
  · rfl
  · rfl

/-! ## The port (R153, R166) -/

/-- What a change of the pins can do: while RESET# is held low, or with no access begun or ended, only the levels
follow; a read or a write begins; a write ends. -/
theorem State.pinChange_cases (s : State) (p : Pins) :
    (∃ q : Port, s.pinChange p = { s with port := q }) ∨
    (s.resetHeld = false ∧ s.port.access = .none ∧ p.cs = false ∧ p.rd = false ∧ p.wr = true ∧
      s.pinChange p = s.beginRead p) ∨
    (s.resetHeld = false ∧ s.port.access = .none ∧ p.cs = false ∧ p.rd = true ∧ p.wr = false ∧
      s.pinChange p = s.beginWrite p) ∨
    (s.resetHeld = false ∧ (p.cs = true ∨ p.wr = true) ∧ ∃ standing : Events,
      s.port.access = .write standing ∧ s.pinChange p = s.endWrite standing p) := by
  unfold State.pinChange
  split
  · exact .inl ⟨_, rfl⟩
  · rename_i hheld
    have hr : s.resetHeld = false := by simpa using hheld
    split
    · rename_i ha
      split
      · rename_i hb
        have hone : p.cs = false ∧ p.rd ≠ p.wr := by
          simpa [Pins.oneStrobe] using (Bool.and_eq_true_iff.1 hb).2
        split
        · rename_i hw
          have hrd : p.rd = false := by
            cases h : p.rd
            · rfl
            · exact absurd (h.trans hw.symm) hone.2
          exact .inr (.inl ⟨hr, ha, hone.1, hrd, hw, rfl⟩)
        · rename_i hw
          have hw' : p.wr = false := by simpa using hw
          have hrd : p.rd = true := by
            cases h : p.rd
            · exact absurd (h.trans hw'.symm) hone.2
            · rfl
          exact .inr (.inr (.inl ⟨hr, ha, hone.1, hrd, hw', rfl⟩))
      · exact .inl ⟨_, rfl⟩
    · exact .inl ⟨_, rfl⟩
    · rename_i standing ha
      split
      · rename_i he
        exact .inr (.inr (.inr ⟨hr, by simpa using he, standing, ha, rfl⟩))
      · exact .inl ⟨_, rfl⟩

/-- At every offset but EVENTS_A and EVENTS_B, a write by the pins is the write access, the raises held back applied. -/
theorem State.endWrite_eq_hostWrite (s : State) (standing : Events) {p : Pins} (ha : p.address ≠ 0x02)
    (hb : p.address ≠ 0x03) :
    s.endWrite standing p =
      { s with port := p.quiet false, events := standing.merge s.events }.hostWrite p.address p.data := by
  unfold State.endWrite
  split
  · rename_i h
    exact absurd (BitVec.eq_of_toNat_eq h) ha
  · rename_i h
    exact absurd (BitVec.eq_of_toNat_eq h) hb
  · rfl

/-! ## The ticks (R151) -/

/-- A 10 ms tick that none has given does not fall. -/
theorem State.tick10_of_not_given {s : State} (h : s.tick10Given = false) : s.tick10 = s := by
  simp [State.tick10, h]

/-- A 100 ms tick that none has given does not fall. -/
theorem State.tick100_of_not_given {s : State} (h : s.tick100Given = false) : s.tick100 = s := by
  simp [State.tick100, h]

/-- A 10 ms tick that has fallen is no longer given. -/
@[simp] theorem State.tick10_tick10Given (s : State) : s.tick10.tick10Given = false := by
  cases h : s.tick10Given <;> simp [State.tick10, h]

/-- A 100 ms tick that has fallen is no longer given. -/
@[simp] theorem State.tick100_tick100Given (s : State) : s.tick100.tick100Given = false := by
  cases h : s.tick100Given <;> simp [State.tick100, h]

/-- After the given ticks are taken none is given. -/
theorem State.takeGivenTicks_none_given (s : State) :
    s.takeGivenTicks.tick10Given = false ∧ s.takeGivenTicks.tick100Given = false := by
  simp [State.takeGivenTicks]

/-- A prescaler stays below 10, and returns to 0 exactly where it gives a tick. -/
theorem prescale_spec (n : Nat) : prescale n ≤ 9 ∧ (prescalerReturns n = true ↔ prescale n = 0) := by
  unfold prescale prescalerReturns
  split <;> simp <;> omega

end Sys2Proof.Machine
end

