-- ==== Sys2Proof/Laws/Ops.lean ====
section
/-! SUPPORT. What each shared operation can do, said once: ownership and the free list, station entries, the queue,
the look, the closing of a transaction, and the handing over of a command. -/

namespace Sys2Proof.Machine

/-! ## Ownership (R114) -/

/-- A change of ownership that applies. -/
theorem State.changeOwner_eq {s : State} {b : Nat} {old : Ownership} (new : Ownership) (h : s.owner b = some old) :
    s.changeOwner b old new =
      { s with
        owners := s.owners.set b new
        freeList := if new = .free then s.freeList ++ [b] else s.freeList } := by
  unfold State.changeOwner
  rw [if_pos h]

/-- A change of ownership that does not apply changes nothing. -/
theorem State.changeOwner_of_ne {s : State} {b : Nat} {old : Ownership} (new : Ownership)
    (h : s.owner b ≠ some old) : s.changeOwner b old new = s := by
  unfold State.changeOwner
  rw [if_neg h]

/-- The number of buffers stays as it is. -/
@[simp] theorem State.changeOwner_owners_length (s : State) (b : Nat) (old new : Ownership) :
    (s.changeOwner b old new).owners.length = s.owners.length := by
  unfold State.changeOwner
  split <;> simp

/-- The buffer of a change that applies has its new ownership. -/
theorem State.owner_changeOwner_same {s : State} {b : Nat} {old : Ownership} (new : Ownership)
    (h : s.owner b = some old) : (s.changeOwner b old new).owner b = some new := by
  rw [State.changeOwner_eq new h]
  unfold State.owner at h ⊢
  obtain ⟨hb, -⟩ := List.getElem?_eq_some_iff.1 h
  simp [hb]

/-- Every other buffer keeps its ownership. -/
theorem State.owner_changeOwner_other (s : State) {b b' : Nat} (old new : Ownership) (h : b' ≠ b) :
    (s.changeOwner b old new).owner b' = s.owner b' := by
  unfold State.changeOwner State.owner
  split
  · simp [h.symm]
  · rfl

/-- A buffer's ownership after a change, in one equation. -/
theorem State.owner_changeOwner (s : State) (b b' : Nat) (old new : Ownership) :
    (s.changeOwner b old new).owner b' =
      if b' = b ∧ s.owner b = some old then some new else s.owner b' := by
  by_cases hb : b' = b
  · subst hb
    by_cases h : s.owner b' = some old
    · simp [State.owner_changeOwner_same new h, h]
    · simp [State.changeOwner_of_ne new h, h]
  · simp [State.owner_changeOwner_other s old new hb, hb]

/-- A change away from FREE's list leaves the free list. -/
theorem State.changeOwner_freeList_of_ne {s : State} {b : Nat} {old new : Ownership} (h : new ≠ .free) :
    (s.changeOwner b old new).freeList = s.freeList := by
  unfold State.changeOwner
  rw [if_neg h]
  split <;> rfl

/-! ## The head of the free list (R115, R116) -/

/-- The taking of the head of a free list that has one. -/
theorem State.takeHead_cons {s : State} {b : Nat} {rest : List Nat} (new : Ownership) (h : s.freeList = b :: rest) :
    s.takeHead new =
      { s with
        freeList := rest
        owners := s.owners.set b new
        memory := s.memory.clear (bufferAddress b 0) 32
        events := if rest.isEmpty then s.events.raise .poolEmpty else s.events } := by
  unfold State.takeHead
  rw [h]

/-- An empty free list gives no buffer. -/
theorem State.takeHead_nil {s : State} (new : Ownership) (h : s.freeList = []) : s.takeHead new = s := by
  unfold State.takeHead
  rw [h]

/-- The number of buffers stays as it is. -/
@[simp] theorem State.takeHead_owners_length (s : State) (new : Ownership) :
    (s.takeHead new).owners.length = s.owners.length := by
  unfold State.takeHead
  split <;> simp

/-- The taking of a buffer keeps the canonical form of memory. -/
theorem State.wf_takeHead {s : State} (new : Ownership) (h : s.memory.wf = true) :
    (s.takeHead new).memory.wf = true := by
  unfold State.takeHead
  split
  · exact h
  · exact Memory.wf_clear _ _ h

/-! ## Station entries (R19) -/

/-- The number of entries stays as it is. -/
@[simp] theorem State.setStation_stations_length (s : State) (a : Nat) (e : Station) :
    (s.setStation a e).stations.length = s.stations.length := by
  cases a <;> simp [State.setStation]

/-- A replaced entry reads as written. -/
theorem State.station_setStation_same {s : State} {a : Nat} (e : Station) (h : 1 ≤ a)
    (hlen : a ≤ s.stations.length) : (s.setStation a e).station a = e := by
  obtain ⟨n, rfl⟩ : ∃ n, a = n + 1 := ⟨a - 1, by omega⟩
  simp only [State.setStation, State.station, List.getD_eq_getElem?_getD]
  rw [List.getElem?_set_self (by omega)]
  rfl

/-- Every other entry stays as it is. -/
theorem State.station_setStation_other (s : State) {a a' : Nat} (e : Station) (h : a' ≠ a) :
    (s.setStation a e).station a' = s.station a' := by
  cases a with
  | zero => rfl
  | succ n =>
    cases a' with
    | zero => rfl
    | succ n' =>
      simp only [State.setStation, State.station, List.getD_eq_getElem?_getD]
      rw [List.getElem?_set_ne (by omega)]

/-- A predicate that every entry meets is met by every entry after one that meets it is put in. -/
theorem State.forall_setStation {P : Station → Prop} {s : State} (a : Nat) {e : Station}
    (hs : ∀ x ∈ s.stations, P x) (he : P e) : ∀ x ∈ (s.setStation a e).stations, P x := by
  cases a with
  | zero => exact hs
  | succ n =>
    intro x hx
    rcases List.mem_or_eq_of_mem_set hx with h | h
    · exact hs x h
    · exact h ▸ he

/-- What holds of every entry, and of the values after reset, holds of the entry of any address. -/
theorem State.station_of_forall {P : Station → Prop} {s : State} (a : Nat) (hs : ∀ x ∈ s.stations, P x)
    (h0 : P Station.afterReset) : P (s.station a) := by
  cases a with
  | zero => exact h0
  | succ n =>
    simp only [State.station, List.getD_eq_getElem?_getD]
    cases hn : s.stations[n]? with
    | none => exact h0
    | some e => exact hs e (List.mem_of_getElem? hn)

/-! ## The queue (R43) -/

/-- A placement at the tail of a class adds the one record. -/
theorem mem_placeAtTail {q : List Request} {r x : Request} : x ∈ placeAtTail q r ↔ x = r ∨ x ∈ q := by
  unfold placeAtTail
  split
  · rw [List.mem_append, List.mem_cons]
    conv_rhs => rw [← List.takeWhile_append_dropWhile (p := (·.urgent)) (l := q), List.mem_append]
    tauto
  · simp [or_comm]

/-- A placement at the head of a class adds the one record. -/
theorem mem_placeAtHead {q : List Request} {r x : Request} : x ∈ placeAtHead q r ↔ x = r ∨ x ∈ q := by
  unfold placeAtHead
  split
  · simp
  · rw [List.mem_append, List.mem_cons]
    conv_rhs => rw [← List.takeWhile_append_dropWhile (p := (·.urgent)) (l := q), List.mem_append]
    tauto

/-- A placement lengthens the queue by one. -/
@[simp] theorem placeAtTail_length (q : List Request) (r : Request) : (placeAtTail q r).length = q.length + 1 := by
  unfold placeAtTail
  split
  · have h := congrArg List.length (List.takeWhile_append_dropWhile (p := fun x : Request => x.urgent) (l := q))
    simp only [List.length_append, List.length_cons] at h ⊢
    omega
  · simp

/-- A placement lengthens the queue by one. -/
@[simp] theorem placeAtHead_length (q : List Request) (r : Request) : (placeAtHead q r).length = q.length + 1 := by
  unfold placeAtHead
  split
  · simp
  · have h := congrArg List.length (List.takeWhile_append_dropWhile (p := fun x : Request => x.urgent) (l := q))
    simp only [List.length_append, List.length_cons] at h ⊢
    omega

/-- A record whose ticket is removed is gone; the rest of the queue is a part of the queue. -/
theorem State.removeRequest_queue_sublist (s : State) (t : Nat) : (s.removeRequest t).queue.Sublist s.queue :=
  List.eraseP_sublist

/-! ## The look (R57 to R64) -/

/-- The record that a look chooses stands in the queue, not holding. -/
theorem State.firstEligible_spec {s : State} {q : List Request} {blocked : List Nat} {r : Request}
    (h : s.firstEligible q blocked = some r) : r ∈ q ∧ s.requestReady r = true := by
  induction q generalizing blocked with
  | nil => simp [State.firstEligible] at h
  | cons x rest ih =>
    unfold State.firstEligible at h
    split at h
    · rename_i hx
      obtain rfl := Option.some.inj h
      exact ⟨List.mem_cons_self, (Bool.and_eq_true _ _ ▸ hx).1⟩
    · exact ⟨List.mem_cons_of_mem _ (ih h).1, (ih h).2⟩

/-- What a chosen request is. -/
theorem State.choose_request {s : State} {r : Request} (h : s.choose = .request r) :
    r ∈ s.queue ∧ s.requestReady r = true := by
  unfold State.choose at h
  split at h
  · cases h
  · split at h
    · rename_i hr
      obtain rfl := Choice.request.inj h
      exact State.firstEligible_spec hr
    · split at h <;> cases h

/-- What a chosen station is: due, in the table, with a buffer to take. -/
theorem State.choose_poll {s : State} {a : Nat} (h : s.choose = .poll a) :
    s.freeList ≠ [] ∧ s.stationDue a = true ∧ 1 ≤ a ∧ a ≤ 31 := by
  have key : ∀ {x : Nat}, s.eligibleDue = some x → s.freeList ≠ [] ∧ s.stationDue x = true ∧ 1 ≤ x ∧ x ≤ 31 := by
    intro x hx
    unfold State.eligibleDue at hx
    split at hx
    · cases hx
    · rename_i hf
      have hx' : (roundRobin s.pollPointer).find? s.stationDue = some x := hx
      refine ⟨by simpa using hf, List.find?_some hx', ?_⟩
      have hm := List.mem_of_find?_eq_some hx'
      simp only [roundRobin, List.mem_map, List.mem_range] at hm
      obtain ⟨i, -, rfl⟩ := hm
      omega
  unfold State.choose at h
  split at h
  · rename_i hx
    obtain rfl := Choice.poll.inj h
    split at hx
    · exact key hx
    · cases hx
  · split at h
    · cases h
    · split at h
      · rename_i hx
        obtain rfl := Choice.poll.inj h
        exact key hx
      · cases h

/-- What a look keeps: a property kept by the flag it clears, by a stalled look, by a completion at dispatch and by the
two dispatches. The hypotheses give what the look has found when it makes each. -/
theorem State.look_keeps {P : State → Prop} {s : State} (hs : P s)
    (hclear : ∀ x : State, P x → P { x with stallActive := false })
    (hstall : ∀ x : State, P x → x.canLook = true → P x.stalledLook)
    (hcomplete : ∀ (x : State) (r : Request), P x → x.canLook = true → x.results.length < 24 → r ∈ x.queue →
      x.requestReady r = true → x.completesAtDispatch r = true → P (x.completeAtDispatch r))
    (hrequest : ∀ (x : State) (r : Request), P x → x.canLook = true → x.results.length < 24 → r ∈ x.queue →
      x.requestReady r = true → x.completesAtDispatch r = false → P (x.dispatchRequest r))
    (hpoll : ∀ (x : State) (a : Nat), P x → x.canLook = true → x.results.length < 24 → x.freeList ≠ [] →
      x.stationDue a = true → 1 ≤ a → a ≤ 31 → P (x.dispatchPoll a)) :
    P s.look := by
  have hcan : ∀ (x : State) (r : Request), x.canLook = true → (x.completeAtDispatch r).canLook = true := by
    intro x r h
    simpa [State.canLook, State.completeAtDispatch] using h
  have go : ∀ (n : Nat) (x : State), P x → x.canLook = true → P (x.lookWith n) := by
    intro n
    induction n with
    | zero => exact fun x hx _ => hx
    | succ n ih =>
      intro x hx hl
      unfold State.lookWith
      split
      · exact hstall x hx hl
      · rename_i hfree
        have hfree' : x.results.length < 24 := by simpa using hfree
        have hx' := hclear x hx
        have hl' : ({ x with stallActive := false } : State).canLook = true := hl
        dsimp only
        split
        · rename_i a ha
          obtain ⟨h1, h2, h3, h4⟩ := State.choose_poll ha
          exact hpoll _ a hx' hl' hfree' h1 h2 h3 h4
        · rename_i r hr
          obtain ⟨h1, h2⟩ := State.choose_request hr
          split
          · rename_i hc
            exact ih _ (hcomplete _ r hx' hl' hfree' h1 h2 hc) (hcan _ r hl')
          · rename_i hc
            exact hrequest _ r hx' hl' hfree' h1 h2 (by simpa using hc)
        · exact hx'
  unfold State.look
  split
  · rename_i hl
    exact go _ s hs hl
  · exact hs

/-- A look where one of its three conditions fails changes nothing (R57). -/
theorem State.look_of_not_canLook {s : State} (h : s.canLook = false) : s.look = s := by
  unfold State.look
  simp [h]

/-! ## Handing a command over (R171, R173) -/

/-- What a write of a command's code can do: nothing while RESET# is held low, the raise of COMMAND_OVERRUN while BUSY,
the command's work in READY. -/
theorem State.hostCommand_cases (s : State) (code : Byte) (work : State → Handled) :
    (s.resetHeld = true ∧ s.hostCommand code work = s) ∨
    (s.resetHeld = false ∧ s.unit ≠ .ready ∧ s.hostCommand code work = s.raise .commandOverrun) ∨
    (s.resetHeld = false ∧ s.unit = .ready ∧ s.hostCommand code work = s.runCommand code work) := by
  unfold State.hostCommand State.discardCommand
  cases hr : s.resetHeld
  · cases hu : s.unit <;> simp
  · simp

/-- A step that RESET# holds off changes nothing, any other is made. -/
theorem State.live_cases (s : State) (f : State → State) :
    (s.resetHeld = true ∧ s.live f = s) ∨ (s.resetHeld = false ∧ s.live f = f s) := by
  unfold State.live
  cases s.resetHeld <;> simp

/-! ## Drain and closing (R102, R145) -/

/-- The end of a drain, or nothing. -/
theorem State.endDrain_cases (s : State) :
    (s.mode = .draining ∧ s.context = none ∧ s.endDrain = s.becomeStopped) ∨
    ((s.mode ≠ .draining ∨ s.context ≠ none) ∧ s.endDrain = s) := by
  unfold State.endDrain
  by_cases h : s.mode = .draining ∧ s.context.isNone
  · exact .inl ⟨h.1, by simpa using h.2, if_pos h⟩
  · refine .inr ⟨?_, if_neg h⟩
    by_cases hm : s.mode = .draining
    · exact .inr fun hc => h ⟨hm, by simp [hc]⟩
    · exact .inl hm

/-- An early closing is a closing: with a record for a request, without one for a poll or a probe. -/
theorem State.closeEarly_eq_close (s : State) (c : Context) (outcome : ResultOutcome) (cancelRequested taken : Bool) :
    ∃ record clear, s.closeEarly c outcome cancelRequested taken = s.close c record clear ∧
      (record.bind ResultRecord.buffer) = none := by
  unfold State.closeEarly
  split
  · exact ⟨_, _, rfl, rfl⟩
  · exact ⟨_, _, rfl, rfl⟩
  · exact ⟨_, _, rfl, rfl⟩

/-- What a closing posts: the one record, or nothing. -/
theorem State.close_results (s : State) (c : Context) (record : Option ResultRecord) (clearSync : Bool) :
    (s.close c record clearSync).results =
      s.results ++ (record.map fun r => { r with stamp := s.timeCounter }).toList := by
  unfold State.close
  cases record <;> cases clearSync <;> simp [State.settleSlot, State.clearSynced]

/-- What the decision on a request can do: a closing with a record, a retry, or a BUSY return (R100). -/
theorem State.decideRequest_cases (s : State) (c : Context) (v : Verdict) (lost : Bool) :
    (∃ r, s.decideRequest c v lost = s.close c (some r) (c.clearsSync true)) ∨
    s.decideRequest c v lost = { s with context := some { c with verdict := none } } ∨
    (s.queue.length < 16 ∧ s.decideRequest c v lost = s.busyReturn c) := by
  have failure : ∀ outcome : ResultOutcome,
      (∃ r, s.decideFailure c outcome lost = s.close c (some r) (c.clearsSync true)) ∨
      s.decideFailure c outcome lost = { s with context := some { c with verdict := none } } := by
    intro outcome
    unfold State.decideFailure State.endRequest
    split
    · exact .inl ⟨_, rfl⟩
    · split
      · exact .inl ⟨_, rfl⟩
      · split
        · exact .inr rfl
        · exact .inl ⟨_, rfl⟩
  have busy : (∃ r, s.decideBusy c = s.close c (some r) (c.clearsSync true)) ∨
      (s.queue.length < 16 ∧ s.decideBusy c = s.busyReturn c) := by
    unfold State.decideBusy State.endRequest
    split
    · exact .inl ⟨_, rfl⟩
    · split
      · rename_i h
        exact .inr ⟨h.2, rfl⟩
      · exact .inl ⟨_, rfl⟩
  unfold State.decideRequest
  split
  · exact .inl ⟨_, rfl⟩
  · exact .inl ⟨_, rfl⟩
  · exact .inl ⟨_, rfl⟩
  · exact busy.imp id .inr
  all_goals exact (failure _).imp id .inl

/-- What the decision on a poll or probe can do: a closing, after at most a change of the station's entry (R77 to
R79). -/
theorem State.decidePoll_cases (s : State) (c : Context) (v : Verdict) :
    ∃ (record : Option ResultRecord) (placed : State),
      (placed = s ∨ ∃ e : Station, placed = s.setStation c.station e) ∧
      s.decidePoll c v = placed.close c record false := by
  unfold State.decidePoll State.judgeReport
  split
  · dsimp only
    split
    · exact ⟨_, _, .inr ⟨_, rfl⟩, rfl⟩
    · exact ⟨_, _, .inr ⟨_, rfl⟩, rfl⟩
  all_goals exact ⟨_, _, .inl rfl, rfl⟩

/-- What a verdict that takes effect can do: nothing where there is none, the closing of a broadcast, or, once the
Station Table has taken it, the decision on a request, or on a poll or probe (R99). -/
theorem State.takeVerdict_cases (s : State) :
    s.takeVerdict = s ∨
    ∃ c, s.context = some c ∧
      ((c.station = 0 ∧ ∃ r, s.takeVerdict = s.close c (some r) (c.clearsSync true)) ∨
       ∃ v, c.station ≠ 0 ∧ c.verdict = some v ∧
         ((c.origin = .request ∧ ∃ lost, s.takeVerdict =
             (s.setStation c.station (s.entryAfter c v)).decideRequest c v lost) ∨
          (c.origin ≠ .request ∧ s.takeVerdict = (s.setStation c.station (s.entryAfter c v)).decidePoll c v))) := by
  unfold State.takeVerdict
  cases hc : s.context with
  | none => exact .inl rfl
  | some c =>
    by_cases h0 : c.station = 0
    · refine .inr ⟨c, rfl, .inl ⟨h0, ?_⟩⟩
      simp only [h0, if_true]
      exact ⟨_, rfl⟩
    · simp only [if_neg h0]
      cases hv : c.verdict with
      | none => exact .inl rfl
      | some v =>
        refine .inr ⟨c, rfl, .inr ⟨v, h0, hv, ?_⟩⟩
        cases ho : c.origin with
        | request => exact .inl ⟨rfl, _, rfl⟩
        | poll => exact .inr ⟨nofun, rfl⟩
        | probe => exact .inr ⟨nofun, rfl⟩

end Sys2Proof.Machine
end

