-- ==== Sys2Proof/Laws/Safety.lean ====
section
/-! SUPPORT. What the invariants of Safety.lean say of a buffer of any index. -/

namespace Sys2Proof.Machine

/-- Only the indices 0..63 have an ownership (R112, R113). -/
theorem State.PoolOk.owner_lt {s : State} (h : s.PoolOk) {b : Nat} {o : Ownership} (ho : s.owner b = some o) :
    b < 64 := by
  obtain ⟨hb, -⟩ := List.getElem?_eq_some_iff.1 ho
  exact h.1 ▸ hb

/-- A buffer is the out buffer of a queued record exactly when it is QUEUED (R113). -/
theorem State.BuffersOk.queued_iff {s : State} (h : s.BuffersOk) (b : Nat) :
    b ∈ s.queuedBuffers ↔ s.owner b = some .queued := by
  obtain ⟨hp, -, -, hlt, -, -, -, hq, -, -⟩ := h
  exact ⟨fun hb => (hq b (hlt b (by simp [hb]))).1 hb, fun ho => (hq b (hp.owner_lt ho)).2 ho⟩

/-- A buffer belongs to the context exactly when it is LINE (R113). -/
theorem State.BuffersOk.line_iff {s : State} (h : s.BuffersOk) (b : Nat) :
    b ∈ s.lineBuffers ↔ s.owner b = some .line := by
  obtain ⟨hp, -, -, hlt, -, -, -, -, hl, -⟩ := h
  exact ⟨fun hb => (hl b (hlt b (by simp [hb]))).1 hb, fun ho => (hl b (hp.owner_lt ho)).2 ho⟩

/-- A buffer belongs to a result record exactly when it is RESULT (R113). -/
theorem State.BuffersOk.result_iff {s : State} (h : s.BuffersOk) (b : Nat) :
    b ∈ s.resultBuffers ↔ s.owner b = some .result := by
  obtain ⟨hp, -, -, hlt, -, -, -, -, -, hr⟩ := h
  exact ⟨fun hb => (hr b (hlt b (by simp [hb]))).1 hb, fun ho => (hr b (hp.owner_lt ho)).2 ho⟩

end Sys2Proof.Machine
end

