-- ==== Sys2Proof/Tests/Slice0.lean ====
section
/-! SUPPORT. The model's own tests: the checks of WellFormed, the values of the spec's examples, small steps, and for
each obligation with hypotheses a state and operands that meet them. -/

namespace Sys2Proof.Tests

open Sys2Proof.Machine

/-! ## States -/

/-- After the initialisation that follows reset: READY, STOPPED, IDLE. -/
def ready : State :=
  { State.reset with unit := .ready }

/-- A READY part whose line mode is RUNNING. -/
def running : State :=
  { ready with mode := .running }

/-- The state a command leads to. -/
def after (c : Instr) (s : State) : State :=
  match exec c s with
  | .next t => t
  | .fault _ | .refused _ => s

/-- The result code and the replies that the completion of the command in progress is to write. -/
def answer (s : State) : Option (ResultCode × Replies) :=
  match s.unit with
  | .executing code replies => some (code, replies)
  | .ready | .initialising => none

/-- A state with argument registers written. -/
def withArgs (s : State) (a0 a1 a2 a3 a4 a5 a6 a7 : Byte) : State :=
  { s with args := ⟨a0, a1, a2, a3, a4, a5, a6, a7⟩ }

/-- A READ to a station, queued with a ticket. -/
def readRequest (ticket station : Nat) : Request :=
  { ticket := ticket, station := station, kind := .read, urgent := false, retryLimit := 2, outBuffer := none,
    outLength := 0, attemptsMade := 0, holdUntil := none }

/-- An EXCHANGE to station 7 in flight, ticket 3, with two payload bytes in buffer 0 and buffer 1 for its answer. -/
def exchange : Context :=
  { origin := .request, ticket := 3, station := 7, kind := .exchange, urgent := false, retryLimit := 2, attempts := 0,
    collisions := 0, outBuffer := some 0, outLength := 2, answerBuffer := some 1, cancelPending := false,
    lastDetail := none, callBits := none, verdict := none }

/-- A poll of station 7 in flight, with buffer 1 for its answer. -/
def poll : Context :=
  { exchange with origin := .poll, ticket := 0, kind := .poll, retryLimit := 0, outBuffer := none, outLength := 0 }

/-- A broadcast in flight, ticket 3, with two payload bytes in buffer 0. -/
def broadcast : Context :=
  { exchange with station := 0, kind := .write, answerBuffer := none }

/-- A RUNNING part with a transaction in flight in a phase; buffers 0 and 1 are LINE. -/
def flying (c : Context) (p : LinePhase) : State :=
  { running with
    phase := p
    context := some c
    reserved := true
    owners := .line :: .line :: List.replicate 62 .free
    freeList := (List.range 62).map (· + 2)
    memory := [(0, 0x12), (1, 0x34)] }

/-- The same part while it sends its call. -/
def calling (c : Context) (t : Transmit) : State :=
  { flying c .calling with de := true, tx := t }

/-- The entry of a station that is ONLINE and synced. -/
def online : Station :=
  { Station.afterReset with state := .online, synced := true }

/-- A part with an entry for a station. -/
def withStation (s : State) (a : Nat) (e : Station) : State :=
  s.setStation a e

/-- The record that section 10.7 takes. -/
def takenExample : ResultRecord :=
  { ticket := 14, origin := .request, station := 9, kind := .read, outcome := .done, answerKind := some .data,
    attempts := 2, collisions := 1, detail := some .silent, buffer := some 5, length := 4, refusal := none,
    cancelRequested := false, stationLost := false, stamp := 0x1234 }

/-! ## WellFormed refuses each kind of ill-formed term -/

theorem test_wf_unknownCommand_named_code : (Instr.unknownCommand 0x10).wellFormed = false := by decide

theorem test_wf_registerWrite_own_row : (Instr.registerWrite 0x16 0).wellFormed = false := by decide

theorem test_wf_pollCountdown_station_0 : (Instr.pollCountdownExpiry 0).wellFormed = false := by decide

theorem test_wf_probeCountdown_station_32 : (Instr.probeCountdownExpiry 32).wellFormed = false := by decide

theorem test_wf_accepts_rows :
    (Instr.unknownCommand 0x11).wellFormed = true ∧ (Instr.registerWrite 0x0F 1).wellFormed = true ∧
    (Instr.pollCountdownExpiry 1).wellFormed = true ∧ (Instr.probeCountdownExpiry 31).wellFormed = true := by decide

/-! ## The spec's examples -/

/-- Section 1.8: the READ call to station 7 with toggle 1, ack 0 and sync 0. -/
theorem test_telegram_call :
    telegram (callAddress 7) (callControl .read ⟨false, true, false⟩) [] = [0x07, 0x0A, 0x00, 0xF6, 0x0A] := by
  decide

/-- Section 1.8: the DATA answer of station 7 with three bytes. -/
theorem test_telegram_answer :
    telegram 0x87 0x0A [0x12, 0x34, 0x56] = [0x87, 0x0A, 0x03, 0x12, 0x34, 0x56, 0x57, 0x79] := by decide

/-- Section 1.8: the parity bit of the address character 0x07, EVEN and ODD. -/
theorem test_parity_of_address : Parity.even.bit 0x07 true = some false ∧ Parity.odd.bit 0x07 true = some true := by
  decide

/-- R1: the frame of a character in time order, 11 bits without parity. -/
theorem test_frame : frameBits .none 0x07 true =
    [false, true, true, true, false, false, false, false, false, true, true] := by decide

/-- Section 10.7: the TAKEN registers of the example. -/
theorem test_taken_example :
    Taken.ofRecord takenExample =
      ⟨0x0E, 0x12, 0x09, 0x01, 0x02, 0x12, 0x01, 0x05, 0x04, 0x00, 0x34, 0x12⟩ := by decide

/-- R169: with the line at mark STATUS reads 0x20 during initialisation and 0x00 after it. -/
theorem test_status_around_initialisation :
    State.reset.status = 0x20 ∧ (after .initialisationEnd State.reset).status = 0x00 := by decide

/-- R167: IDENT reads 0x3A and an unused offset reads 0x00. -/
theorem test_ident : ready.readRegister 0x00 = some 0x3A ∧ ready.readRegister 0x1F = some 0x00 := by decide

/-- R153: while RESET# is held low a read drives nothing. -/
theorem test_ident_held : (after .resetAssert ready).readRegister 0x00 = none := by decide

/-! ## The bus port (R166) -/

/-- The pins with CS#, RD# and WR# at these levels, high or low, an offset and data. -/
def pins (cs rd wr : Bool) (address : Offset) (data : Byte) : Pins :=
  ⟨cs, rd, wr, address, data⟩

/-- Pin changes one after another. -/
def drive (s : State) (changes : List Pins) : State :=
  changes.foldl State.pinChange s

/-- Section 10.1: BUF_DATA read once while RD# is low; a fall of WR# during the access, and its being low at the end,
begin no access of their own; a new fall of WR# does. -/
theorem test_port_read :
    (drive ready [pins false true true 0x15 0, pins false false true 0x00 0]).busDrive = some 0x3A ∧
    (drive ready [pins false false true 0x00 0, pins false false false 0x04 9, pins false true false 0x04 9]).port =
      ⟨false, true, false, false, .none⟩ ∧
    (drive ready [pins false false true 0x00 0, pins false false false 0x04 9, pins false true false 0x04 9,
      pins false true true 0x04 9, pins false true false 0x04 9, pins true true false 0x04 9]).enableA = 9 := by decide

/-- Section 9.7: a CONFLICT that comes while the host writes 0x02 to EVENTS_B is held back and sets the flag again. -/
theorem test_port_holds_raise_back :
    (drive ((drive { ready with events := { Events.clear with conflict := true } }
      [pins false true false 0x03 2]).raise .conflict) [pins true true true 0x03 2]).eventsB = 0x02 ∧
    (drive { ready with events := { Events.clear with conflict := true } }
      [pins false true false 0x03 2, pins true true true 0x03 2]).eventsB = 0x00 := by decide

/-! ## Small steps: the commands -/

/-- A HOST buffer 0 in an otherwise free pool. -/
def hostBuffer : State :=
  { ready with owners := .host :: List.replicate 63 .free, freeList := (List.range 63).map (· + 1) }

/-- The record of section 10.7 waiting in the Result Queue with its buffer. -/
def resultBuffer : State :=
  { ready with
    results := [takenExample]
    owners := (List.replicate 64 Ownership.free).set 5 .result
    freeList := (List.range 64).erase 5 }

/-- Section 10.7: the arguments of the first SUBMIT, with the ticket counter at 14. -/
def submitting : State :=
  { withArgs ready 9 2 0xFF 0 3 0 0 0 with ticketCounter := 14 }

theorem test_allocate_takes_buffer_0 :
    (after .allocate ready).owner 0 = some .host ∧ answer (after .allocate ready) = some (.ok, ⟨0, 63, 0, 0⟩) := by
  decide

theorem test_release_appends_at_tail :
    (after .release hostBuffer).freeList.getLast? = some 0 ∧
    answer (after .release hostBuffer) = some (.ok, ⟨0, 64, 0, 0⟩) := by decide

theorem test_release_index_64 :
    answer (after .release (withArgs hostBuffer 64 0 0 0 0 0 0 0)) = some (.badArgument, ⟨64, 63, 0xFF, 0⟩) := by
  decide

theorem test_submit_ticket_14 :
    answer (after .submit submitting) = some (.ok, ⟨14, 1, 0, 0⟩) ∧ (after .submit submitting).ticketCounter = 15 ∧
    (after .submit submitting).queue.map (·.station) = [9] := by decide

/-- R46: an EXCHANGE of length 0 is refused. -/
theorem test_submit_empty_exchange :
    answer (after .submit (withArgs hostBuffer 9 3 0 0 3 0 0 0)) = some (.badArgument, ⟨0, 0, 0, 0⟩) := by decide

theorem test_cancel_queued :
    answer (after .cancel { withArgs ready 6 0 0 0 0 0 0 0 with queue := [readRequest 5 1, readRequest 6 2] }) =
      some (.cancelled, ⟨6, 0, 0, 0⟩) := by decide

/-- Section 11.9: a cancel taken in WAITING. -/
theorem test_cancel_pending :
    answer (after .cancel (withArgs (flying exchange .waiting) 3 0 0 0 0 0 0 0)) =
      some (.cancelPending, ⟨3, 1, 0, 0⟩) := by decide

/-- Section 10.7: the replies of TAKE, and the buffer's new owner. -/
theorem test_take_example :
    answer (after .take resultBuffer) = some (.ok, ⟨14, 1, 5, 0⟩) ∧
    (after .take resultBuffer).owner 5 = some .host := by decide

theorem test_take_empty : answer (after .take ready) = some (.empty, ⟨0, 0, 0xFF, 0⟩) := by decide

theorem test_start : (after .start ready).mode = .running ∧ answer (after .start ready) = some (.ok, ⟨1, 0, 0, 0⟩) := by
  decide

/-- R143: answer timeout 5 with character gap 5. -/
theorem test_start_bad_config :
    answer (after .start { ready with
      lineConfig := { LineConfig.afterReset with answerTimeout := 5, characterGap := 5 } }) =
      some (.badConfig, ⟨0, 0, 0, 0⟩) := by decide

theorem test_stop_drains :
    (after .stop (flying exchange .waiting)).mode = .draining ∧
    answer (after .stop (flying exchange .waiting)) = some (.ok, ⟨2, 0, 0, 0⟩) := by decide

theorem test_abort_posts :
    (after .abort (calling exchange .lead)).de = false ∧
    (after .abort (calling exchange .lead)).results.map (·.outcome) = [.aborted] ∧
    answer (after .abort (calling exchange .lead)) = some (.ok, ⟨0, 3, 1, 0⟩) := by decide

theorem test_set_line :
    (after .setLine (withArgs ready 7 2 5 4 3 2 1 8)).lineConfig = ⟨7, .odd, 5, 4, 3, 2, 1, 8⟩ := by decide

theorem test_get_line_defaults :
    answer (after .getLine ready) = some (.ok, ⟨1, 0, 20, 3⟩) ∧
    answer (after .getLine (withArgs ready 1 0 0 0 0 0 0 0)) = some (.ok, ⟨2, 1, 1, 40⟩) := by decide

theorem test_set_limits :
    (after .setLimits (withArgs ready 15 2 3 4 24 0 0 0)).limits = ⟨15, 2, 3, 4, 24⟩ := by decide

theorem test_get_limits_defaults :
    answer (after .getLimits ready) = some (.ok, ⟨3, 4, 10, 10⟩) ∧
    answer (after .getLimits (withArgs ready 1 0 0 0 0 0 0 0)) = some (.ok, ⟨16, 0, 0, 0⟩) := by decide

theorem test_set_station_disables :
    ((after .setStation (withArgs ready 7 2 9 0 0 0 0 0)).station 7).state = .disabled ∧
    ((after .setStation (withArgs ready 7 2 9 0 0 0 0 0)).station 7).pollCountdown = 9 ∧
    answer (after .setStation (withArgs ready 7 2 9 0 0 0 0 0)) = some (.ok, ⟨7, 4, 0, 0⟩) := by decide

/-- R39: call toggle 0, last-report toggle 1, synced and unchanged give the sequence byte 0x06. -/
theorem test_get_station :
    answer (after .getStation (withArgs (withStation ready 7 online) 7 0 0 0 0 0 0 0)) =
      some (.ok, ⟨1, 0, 0, 0x06⟩) := by decide

theorem test_next_change_lowest :
    answer (after .nextChange (withStation (withStation ready 9 { online with changed := true }) 4
      { online with changed := true })) = some (.ok, ⟨4, 1, 0, 0⟩) := by decide

theorem test_reset_keeps_settings :
    (after .reset { ready with limits := ⟨1, 2, 3, 4, 5⟩, pollPointer := 7 }).limits = ⟨1, 2, 3, 4, 5⟩ ∧
    (after .reset { ready with pollPointer := 7 }).pollPointer = 31 ∧ (after .reset ready).commandCode = 0x10 := by
  decide

theorem test_unknown_command :
    answer (after (.unknownCommand 0x11) ready) = some (.unknownCommand, ⟨0, 0, 0, 0⟩) := by decide

/-- Section 10.7: the second COMMAND write is discarded. -/
theorem test_discarded_command_write :
    (after (.discardedCommandWrite 0x03) (after .submit submitting)).eventsA = 0x02 ∧
    answer (after (.discardedCommandWrite 0x03) (after .submit submitting)) = some (.ok, ⟨14, 1, 0, 0⟩) := by decide

theorem test_command_completion :
    (after .commandCompletion (after .submit submitting)).replies = ⟨14, 1, 0, 0⟩ ∧
    (after .commandCompletion (after .submit submitting)).eventsA = 0x01 := by decide

/-! ## Small steps: the host window and the resets -/

theorem test_events_write_clears_one :
    (after (.eventsWrite .a 0x02) { ready with
      events := { Events.clear with commandDone := true, commandOverrun := true } }).eventsA = 0x01 := by decide

theorem test_enable_write : (after (.enableWrite .b 0xFF) ready).enableB = 0x0F := by decide

theorem test_irq_needs_enable :
    (after (.enableWrite .b 0x04) (after .breakDetected ready)).irqLow = true ∧
    (after .breakDetected ready).irqLow = false := by decide

theorem test_buf_select_write : (after (.bufSelectWrite 5) { ready with bufOffset := 7 }).bufOffset = 0 := by decide

theorem test_buf_offset_write : (after (.bufOffsetWrite 0x25) ready).bufOffset = 5 := by decide

/-- R120: the offset goes from 31 to 0. -/
theorem test_buf_data_read_wraps :
    (after .bufDataRead { hostBuffer with bufOffset := 31, memory := [(31, 9)] }).readData = 9 ∧
    (after .bufDataRead { hostBuffer with bufOffset := 31 }).bufOffset = 0 := by decide

theorem test_buf_data_write : (after (.bufDataWrite 9) { hostBuffer with bufOffset := 3 }).bufferByte 0 3 = 9 := by
  decide

/-- R122: a write to the FREE buffer 1 is a fault, bit 7 set for a write. -/
theorem test_buf_data_write_faults :
    (after (.bufDataWrite 9) { hostBuffer with bufSelect := 1 }).faultReg = 0x81 ∧
    (after (.bufDataWrite 9) { hostBuffer with bufSelect := 1 }).eventsB = 0x08 := by decide

theorem test_time_lo_read :
    (after .timeLoRead { ready with timeCounter := 0x1234 }).readData = 0x34 ∧
    (after .timeLoRead { ready with timeCounter := 0x1234 }).readRegister 0x1B = some 0x12 := by decide

theorem test_register_write :
    (after (.registerWrite 0x0F 9) ready).args.arg7 = 9 ∧ after (.registerWrite 0x19 9) ready = ready := by decide

theorem test_reset_pin :
    (after .resetAssert running).mode = .stopped ∧
    (after .resetRelease (after .resetAssert running)).resetHeld = false := by decide

theorem test_power_on : (after .powerOn running).unit = .initialising := by decide

/-! ## Small steps: the line -/

/-- A RUNNING part whose receiver is inside a character. -/
def inside (s : State) : State :=
  { s with receiver := { Receiver.ready with inCharacter := some ⟨1, .none⟩ } }

/-- Section 1.8: the address character of a call is a conflict to another controller (R104). -/
theorem test_address_in_idle_is_conflict :
    (after (.characterDelivered 0x07 true true true) (inside running)).phase = .holdoff ∧
    (after (.characterDelivered 0x07 true true true) (inside running)).conflicts = 1 := by decide

/-- R97: an answer from another station. -/
theorem test_answer_from_wrong_station :
    ((after (.characterDelivered 0x88 true true true) (inside (flying exchange .receiving))).context.map
      (·.verdict)) = some (some (.badAnswer .wrongStation)) := by decide

theorem test_start_bit_begins_reception : (after .confirmedStartBit (flying exchange .waiting)).phase = .receiving := by
  decide

theorem test_space_character_is_stray :
    (after .spaceCharacter { running with
      receiver := { Receiver.ready with heldSpace := true } }).strayCharacters = 1 := by decide

theorem test_break_detected :
    (after .breakDetected running).eventsB = 0x04 ∧ (after .breakDetected running).status = 0x41 := by decide

theorem test_break_end : (after .breakEnd (after .breakDetected running)).phase = .holdoff := by decide

theorem test_rxd_return_to_mark :
    (after .rxdReturnToMark { running with receiver := { Receiver.ready with awaitMark := true } }).receiver =
      Receiver.ready := by decide

theorem test_telegram_gap_expiry :
    (after .telegramGapExpiry (flying exchange .gap)).de = true ∧
    (after .telegramGapExpiry (flying exchange .gap)).tx = .lead := by decide

/-- R6, R16: the first character of the call, and the toggles of an entry that is not synced. -/
theorem test_de_lead_expiry :
    (after .deLeadExpiry (calling exchange .lead)).tx = .sending 0 0x07 true false ∧
    ((after .deLeadExpiry (calling exchange .lead)).context.bind (·.callBits)) = some ⟨true, false, true⟩ := by decide

/-- Section 1.8: the control character follows the address character; kind 3 with toggle 1. -/
theorem test_character_sent :
    (after .characterSent (calling { exchange with callBits := some ⟨false, true, false⟩ }
      (.sending 0 0x07 true true))).tx = .sending 1 0x0B false false := by decide

theorem test_de_trail_expiry :
    (after .deTrailExpiry (calling exchange .trail)).phase = .waiting ∧
    (after .deTrailExpiry (calling broadcast .trail)).phase = .settling := by decide

theorem test_echo_missing_is_collision :
    (after .echoMissing (calling exchange (.sending 2 0 false false))).phase = .holdoff ∧
    ((after .echoMissing (calling exchange (.sending 2 0 false false))).context.map (·.collisions)) = some 1 := by
  decide

/-- R91: the fourth collision with a cancel pending ends a request CANCELLED and a broadcast CONFLICT. -/
theorem test_fourth_collision :
    (calling { exchange with collisions := 3, cancelPending := true } .lead).collide.results.map (·.outcome) =
      [.cancelled] ∧
    (calling { broadcast with collisions := 3, cancelPending := true } .lead).collide.results.map (·.outcome) =
      [.conflict] := by decide

theorem test_answer_timer_expiry :
    ((after .answerTimerExpiry (flying exchange .waiting)).context.map (·.verdict)) = some (some .noAnswer) := by decide

theorem test_character_gap_expiry :
    ((after .characterGapExpiry { flying exchange .receiving with timer := ⟨.characterGap, 33⟩ }).context.map
      (·.lastDetail)) = some (some .truncated) := by decide

/-- Section 11.7: the BAD_ANSWER of the first attempt: SUSPECT with fail count 1, and a retry. -/
theorem test_settle_retries :
    ((after .settleTimerExpiry (withStation (flying
      { exchange with attempts := 1, verdict := some (.badAnswer .check) } .settling) 7 online)).station 7).state =
      .suspect ∧
    (after .settleTimerExpiry (withStation (flying
      { exchange with attempts := 1, verdict := some (.badAnswer .check) } .settling) 7 online)).phase = .gap := by
  decide

/-- Section 11.10: a BUSY answer returns the request to the queue, holding 10 ms. -/
theorem test_settle_busy_returns :
    (after .settleTimerExpiry (flying
      { exchange with attempts := 1, verdict := some (.valid .busy 0 false none) } .settling)).queue.map
        (·.holdUntil) = [some 10] := by decide

theorem test_holdoff_expiry :
    (after .holdoffExpiry { running with phase := .holdoff }).phase = .idle ∧
    (after .holdoffExpiry (flying exchange .holdoff)).phase = .gap := by decide

/-! ## Small steps: the Timebase and the Dispatcher -/

theorem test_time_counter_wraps :
    (after .timeCounterTick { ready with timeCounter := 0xFFFF, prescaler10 := 9 }).timeCounter = 0 ∧
    (after .timeCounterTick { ready with prescaler10 := 9 }).prescaler10 = 0 := by decide

/-- A RUNNING part at the rise of the time counter that brings both prescalers back to 0. -/
def atTicks (e : Station) : State :=
  { withStation running 7 e with prescaler10 := 9, prescaler100 := 9 }

theorem test_ten_ms_tick :
    ((after .tenMsTick (after .timeCounterTick (atTicks { online with pollPeriod := 3, pollCountdown := 2 }))).station
      7).pollCountdown = 1 ∧
    after .tenMsTick (atTicks online) = atTicks online := by decide

theorem test_hundred_ms_tick :
    ((after .hundredMsTick (after .tenMsTick (after .timeCounterTick
      (atTicks { online with state := .offline, probeCountdown := 2 })))).station 7).probeCountdown = 1 ∧
    after .hundredMsTick (atTicks online) = atTicks online := by decide

theorem test_poll_due_is_dispatched :
    ((after (.pollCountdownExpiry 7) (withStation running 7 { online with pollPeriod := 3 })).context.map
      (·.station)) = some 7 := by decide

theorem test_probe_due_is_dispatched :
    ((after (.probeCountdownExpiry 7) (withStation running 7 { online with state := .offline })).context.map
      (·.origin)) = some .probe := by decide

theorem test_hold_end_dispatches :
    ((after .holdEnd { running with
      queue := [{ readRequest 5 9 with holdUntil := some 0 }] }).context.map (·.ticket)) = some 5 := by decide

/-- Section 11.8: one look completes tickets 41 and 42 to the OFFLINE station 12 and dispatches ticket 43. -/
theorem test_look_completes_and_dispatches :
    (after .start (withStation { ready with queue := [readRequest 41 12, readRequest 42 12, readRequest 43 5] } 12
      { online with state := .offline, probeCountdown := 10 })).results.map (·.outcome) =
      [.stationOffline, .stationOffline] ∧
    ((after .start (withStation { ready with queue := [readRequest 41 12, readRequest 42 12, readRequest 43 5] } 12
      { online with state := .offline, probeCountdown := 10 })).context.map (·.ticket)) = some 43 := by decide

/-- Section 11.11: a look that finds 24 records with work waiting stalls. -/
theorem test_look_stalls :
    (after .start { ready with results := List.replicate 24 takenExample, queue := [readRequest 71 5] }).stallActive =
      true ∧
    (after .start { ready with results := List.replicate 24 takenExample, queue := [readRequest 71 5] }).eventsA =
      0x84 := by decide

/-! ## Witnesses: a state and operands that meet the hypotheses of each statement, clause by clause -/

theorem witness_StepRunsFrontCommand :
    { ready with pending := [.take, .start] }.pending = .take :: [.start] ∧ ready.pending = [] := by decide

theorem witness_ExecKeepsPendingQueue : ∃ t : State, exec .take ready = .next t := ⟨_, rfl⟩

theorem witness_HeldPartMovesOnlyByResets :
    { ready with resetHeld := true }.resetHeld = true ∧ Instr.allocate ≠ .resetAssert ∧
    Instr.allocate ≠ .resetRelease ∧ Instr.allocate ≠ .powerOn := by decide

theorem witness_CommandCompletionWritesResult :
    (after .take ready).resetHeld = false ∧ (after .take ready).unit = .executing .empty ⟨0, 0, 0xFF, 0⟩ := by decide

theorem witness_BusyUnitDiscardsCommands :
    isCommandWrite (.discardedCommandWrite 0x10) = true ∧ State.reset.resetHeld = false ∧ State.reset.unit ≠ .ready := by
  decide

theorem witness_UnknownCodeCompletes :
    ready.TakesCommand ∧ ((0x00 : Byte) = 0x00 ∨ 0x11 ≤ (0x00 : Byte).toNat) ∧
    ((0x11 : Byte) = 0x00 ∨ 0x11 ≤ (0x11 : Byte).toNat) ∧ ((0xFF : Byte) = 0x00 ∨ 0x11 ≤ (0xFF : Byte).toNat) := by
  decide

theorem witness_CommandCodesSelectCommands : ready.TakesCommand := by decide

/-- A pool whose only free buffer is 63. -/
def lastBuffer : State :=
  { ready with owners := List.replicate 63 .host ++ [.free], freeList := [63] }

theorem witness_AllocateTakesHead :
    (ready.TakesCommand ∧ ∃ rest, ready.freeList = 0 :: rest) ∧
    (lastBuffer.TakesCommand ∧ lastBuffer.freeList = 63 :: []) ∧
    ({ ready with freeList := [] }.TakesCommand ∧ { ready with freeList := [] }.freeList = []) :=
  ⟨⟨by decide, _, rfl⟩, by decide, by decide⟩

theorem witness_ReleaseFreesBuffer :
    (hostBuffer.TakesCommand ∧ hostBuffer.args.arg0.toNat = 0 ∧ hostBuffer.owner 0 = some .host) ∧
    (lastBuffer.TakesCommand ∧ (withArgs lastBuffer 63 0 0 0 0 0 0 0).args.arg0.toNat = 63 ∧
      lastBuffer.owner 63 = some .free) ∧
    63 < (withArgs ready 64 0 0 0 0 0 0 0).args.arg0.toNat := by decide

/-- A SUBMIT that has been taken with buffer 0: the buffer is QUEUED. -/
def queuedBuffer : State :=
  { hostBuffer with
    owners := .queued :: List.replicate 63 .free
    queue := [{ readRequest 5 1 with kind := .write, outBuffer := some 0 }] }

theorem witness_BuffersKeptForTheirHolders :
    (Instr.wellFormed .allocate = true ∧ hostBuffer.PoolOk ∧ hostBuffer.owner 0 = some .host ∧
      ∃ t : State, exec .allocate hostBuffer = .next t) ∧
    (queuedBuffer.BuffersOk ∧ queuedBuffer.owner 0 = some .queued ∧
      (after .timeCounterTick queuedBuffer).owner 0 = some .queued) :=
  ⟨⟨by decide, by decide, by decide, _, rfl⟩, by decide⟩

/-- A queue of 16 records. -/
def fullQueue : State :=
  { ready with queue := (List.range 16).map fun i => readRequest (i + 1) 1, ticketCounter := 17 }

/-- A SUBMIT with buffer 0 that names no HOST buffer. -/
def submittingFree : State :=
  withArgs ready 9 1 0 3 0 0 0 0

theorem witness_SubmitRefusals_faulty :
    (withArgs ready 9 0 0xFF 0 0 0 0 0).TakesCommand ∧ (withArgs ready 9 0 0xFF 0 0 0 0 0).args.SubmitFaulty := by
  decide

theorem witness_SubmitRefusals_notHost :
    submittingFree.TakesCommand ∧ ¬ submittingFree.args.SubmitFaulty ∧ submittingFree.args.arg2 ≠ 0xFF ∧
    submittingFree.owner submittingFree.args.arg2.toNat ≠ some .host := by decide

theorem witness_SubmitRefusals_queueFull :
    (withArgs fullQueue 31 2 0xFF 0 7 1 0 0).TakesCommand ∧
    ¬ (withArgs fullQueue 31 2 0xFF 0 7 1 0 0).args.SubmitFaulty ∧
    (withArgs fullQueue 31 2 0xFF 0 7 1 0 0).args.arg2 = 0xFF ∧ 16 ≤ fullQueue.queue.length := by decide

theorem witness_SubmitQueuesRequest :
    (submitting.TakesCommand ∧ ¬ submitting.args.SubmitFaulty ∧ submitting.args.arg2 = 0xFF ∧ submitting.QueueOk ∧
      submitting.queue.length < 16) ∧
    (withArgs hostBuffer 0 1 0 32 0 1 0 0).TakesCommand := by decide

theorem witness_SubmitQueuesRequest_with_buffer :
    ¬ (withArgs hostBuffer 0 1 0 32 0 1 0 0).args.SubmitFaulty ∧
    (withArgs hostBuffer 0 1 0 32 0 1 0 0).owner 0 = some .host ∧ hostBuffer.QueueOk := by decide

theorem witness_TicketIsFirstFree :
    { ready with queue := [readRequest 255 1, readRequest 1 2], ticketCounter := 255 }.TicketsOk ∧
    { ready with queue := [readRequest 255 1, readRequest 1 2], ticketCounter := 255 }.queue.length < 16 ∧
    { ready with queue := [readRequest 255 1, readRequest 1 2], ticketCounter := 255 }.freeTicket 255 255 = 2 := by
  decide

theorem witness_CancelQueuedRequest :
    (withArgs queuedBuffer 5 0 0 0 0 0 0 0).TakesCommand ∧ (withArgs queuedBuffer 5 0 0 0 0 0 0 0).args.arg0 ≠ 0 ∧
    queuedBuffer.queue.find? (·.ticket == 5) = some { readRequest 5 1 with kind := .write, outBuffer := some 0 } ∧
    queuedBuffer.owner 0 = some .queued := by decide

theorem witness_CancelInFlightRequest :
    (withArgs (flying exchange .gap) 3 0 0 0 0 0 0 0).TakesCommand ∧
    (flying exchange .gap).queue.find? (·.ticket == 3) = none ∧ exchange.origin = .request ∧ exchange.ticket = 3 ∧
    (flying exchange .holdoff).phase = .holdoff ∧ (flying exchange .waiting).phase = .waiting ∧
    (withArgs (flying exchange .gap) 4 0 0 0 0 0 0 0).args.arg0.toNat ≠ exchange.ticket ∧
    ready.args.arg0.toNat = 0 := by decide

theorem witness_TakeHandsOverHead :
    (ready.TakesCommand ∧ ready.results = []) ∧
    (resultBuffer.TakesCommand ∧ resultBuffer.results = [takenExample] ∧ takenExample.buffer = some 5 ∧
      resultBuffer.owner 5 = some .result) := by decide

theorem witness_TakenShowsRecord :
    takenExample.ticket ≤ 255 ∧ takenExample.station ≤ 31 ∧ takenExample.attempts ≤ 8 ∧ takenExample.collisions ≤ 4 ∧
    takenExample.length ≤ 32 ∧ ∀ b ∈ takenExample.buffer, b ≤ 63 := by decide

theorem witness_ResultsLeaveOnlyByTake :
    Instr.wellFormed .take = true ∧ (after .take { ready with results := [takenExample] }).results = [] ∧
    (after .allocate { ready with results := [takenExample] }).results = [takenExample] := by decide

theorem witness_StartRule :
    (running.TakesCommand ∧ running.mode ≠ .stopped) ∧
    (ready.TakesCommand ∧ ready.mode = .stopped ∧
      ready.lineConfig.characterGap + 1 ≤ ready.lineConfig.answerTimeout) ∧
    { ready with lineConfig := { LineConfig.afterReset with
      answerTimeout := 15, characterGap := 15 } }.lineConfig.answerTimeout < 15 + 1 := by decide

theorem witness_StopRule :
    (ready.TakesCommand ∧ ready.mode = .stopped) ∧
    ({ running with phase := .holdoff }.TakesCommand ∧ { running with phase := .holdoff }.context = none) ∧
    ((flying exchange .waiting).TakesCommand ∧ (flying exchange .waiting).mode = .running ∧
      (flying exchange .waiting).context.isSome = true) ∧
    { flying exchange .waiting with mode := .draining }.mode = .draining := by decide

theorem witness_AbortRule :
    (running.TakesCommand ∧ running.context = none) ∧
    ((calling exchange .lead).TakesCommand ∧ (calling exchange .lead).context = some exchange ∧
      exchange.origin = .request) ∧
    ((calling poll .lead).TakesCommand ∧ (calling poll .lead).context = some poll ∧ poll.origin ≠ .request) := by decide

/-- Arguments of SET_LINE at the ends of their ranges. -/
def lineArgs : Args :=
  ⟨7, 2, 2, 1, 15, 7, 0, 8⟩

/-- Arguments of SET_LIMITS at the ends of their ranges. -/
def limitArgs : Args :=
  ⟨15, 1, 1, 255, 24, 0, 0, 0⟩

theorem witness_SettingsCommands_line :
    { ready with args := lineArgs }.TakesCommand ∧ ready.mode = .stopped ∧ running.mode ≠ .stopped ∧
    (lineArgs.arg0.toNat ≤ 7 ∧ lineArgs.arg1.toNat ≤ 2 ∧ 2 ≤ lineArgs.arg2.toNat ∧
      (1 ≤ lineArgs.arg3.toNat ∧ lineArgs.arg3.toNat ≤ 15) ∧ (1 ≤ lineArgs.arg4.toNat ∧ lineArgs.arg4.toNat ≤ 15) ∧
      lineArgs.arg5.toNat ≤ 7 ∧ lineArgs.arg6.toNat ≤ 7 ∧ 8 ≤ lineArgs.arg7.toNat) ∧
    ¬ 8 ≤ { lineArgs with arg7 := 7 }.arg7.toNat := by decide

theorem witness_SettingsCommands_limits :
    { ready with args := limitArgs }.TakesCommand ∧
    ((1 ≤ limitArgs.arg0.toNat ∧ limitArgs.arg0.toNat ≤ 15) ∧ (1 ≤ limitArgs.arg1.toNat ∧ limitArgs.arg1.toNat ≤ 15) ∧
      1 ≤ limitArgs.arg2.toNat ∧ 1 ≤ limitArgs.arg3.toNat ∧
      (1 ≤ limitArgs.arg4.toNat ∧ limitArgs.arg4.toNat ≤ 24)) ∧
    ¬ { limitArgs with arg4 := 25 }.arg4.toNat ≤ 24 := by decide

theorem witness_LineConfigChangesOnlyInStopped :
    (after .setLine (withArgs ready 7 2 5 4 3 2 1 8)).lineConfig ≠ ready.lineConfig := by decide

theorem witness_GetLineRule :
    ready.TakesCommand ∧ 2 < (withArgs ready 3 0 0 0 0 0 0 0).args.arg0.toNat ∧
    1 < (withArgs ready 2 2 0 0 0 0 0 0).args.arg1.toNat ∧ (withArgs ready 1 1 0 0 0 0 0 0).args.arg0 ≠ 2 ∧
    (withArgs ready 2 1 0 0 0 0 0 0).args.arg0 = 2 ∧ (withArgs ready 1 0 0 0 0 0 0 0).args.arg0 = 1 := by decide

theorem witness_GetLimitsRule :
    ready.TakesCommand ∧ 1 < (withArgs ready 2 0 0 0 0 0 0 0).args.arg0.toNat ∧ ready.args.arg0 = 0 ∧
    (withArgs ready 1 0 0 0 0 0 0 0).args.arg0 = 1 := by decide

/-- The codes of R20. -/
def stateCode : StationState → Byte
  | .unknown => 0
  | .online => 1
  | .suspect => 2
  | .offline => 3
  | .disabled => 4

/-- The code function of SetStationRule, GetStationRule and NextChangeRule. -/
theorem witness_state_codes :
    ∀ p ∈ [(StationState.unknown, (0 : Byte)), (.online, 1), (.suspect, 2), (.offline, 3), (.disabled, 4)],
      stateCode p.1 = p.2 := by decide

theorem witness_SetStationRule :
    (withArgs ready 31 2 255 3 0 0 0 0).TakesCommand ∧
    (1 ≤ (withArgs ready 31 2 255 3 0 0 0 0).args.arg0.toNat ∧
      (withArgs ready 31 2 255 3 0 0 0 0).args.arg0.toNat ≤ 31) ∧
    ready.args.arg0.toNat = 0 ∧ 31 < (withArgs ready 32 0 0 0 0 0 0 0).args.arg0.toNat ∧
    2 < (withArgs ready 1 3 0 0 0 0 0 0).args.arg1.toNat ∧ 3 < (withArgs ready 1 0 0 4 0 0 0 0).args.arg3.toNat := by
  decide

theorem witness_GetStationRule :
    (withArgs ready 31 0 0 0 0 0 0 0).TakesCommand ∧ (withArgs ready 31 0 0 0 0 0 0 0).args.arg0.toNat = 31 ∧
    (withArgs ready 1 1 0 0 0 0 0 0).args.arg1 = 1 ∧ (withArgs ready 1 2 0 0 0 0 0 0).args.arg1 = 2 ∧
    2 < (withArgs ready 1 3 0 0 0 0 0 0).args.arg1.toNat := by decide

theorem witness_NextChangeRule :
    (ready.TakesCommand ∧ ∀ a < 32, (ready.station a).changed = false) ∧
    ((withStation ready 31 { online with changed := true }).TakesCommand ∧
      ((withStation ready 31 { online with changed := true }).station 31).changed = true ∧
      ∀ b < 31, ((withStation ready 31 { online with changed := true }).station b).changed = false) := by decide

theorem witness_StationTakesVerdict :
    ((withStation ready 7 { online with state := .disabled }).station 7).state = .disabled ∧
    ((withStation ready 7 { online with state := .offline, failCount := 15 }).station 7).state = .offline ∧
    ((withStation ready 7 { online with state := .suspect, failCount := 1 }).station 7).failCount + 1 <
      ready.limits.offlineThreshold ∧
    ready.limits.offlineThreshold ≤
      ((withStation ready 7 { online with state := .suspect, failCount := 2 }).station 7).failCount + 1 := by decide

theorem witness_ResetSteps :
    ready.TakesCommand ∧ { ready with resetHeld := true }.resetHeld = true ∧ State.reset.resetHeld = false ∧
    State.reset.unit = .initialising := by decide

/-- A part whose host writes to EVENTS_A by the pins, the access still in progress, with STALL set before it. -/
def writing : State :=
  { ready with port := ⟨false, true, false, false, .write { Events.clear with stall := true }⟩ }

theorem witness_EventsWriteClears :
    ready.resetHeld = false ∧ writing.port.access = .write { Events.clear with stall := true } ∧
    ((pins true true false 0x02 0x80).cs = true ∨ (pins true true false 0x02 0x80).wr = true) := by decide

theorem witness_RegistersShowState :
    (∀ standing : Events, ready.port.access ≠ .write standing) ∧ ready.resetHeld = false ∧
    (after .resetAssert ready).resetHeld = true ∧ (0x1D ≤ (0x1D : Offset).toNat ∧ (0x1F : Offset).toNat ≤ 0x1F) ∧
    0x2C ≤ (0x3F : Offset).toNat :=
  ⟨nofun, by decide⟩

theorem witness_WindowRegisterAccesses :
    ready.resetHeld = false ∧ (isPlainOffset 0x08 = true ∧ isPlainOffset 0x0F = true) ∧
    (isPlainOffset 0x07 = true ∧ isPlainOffset 0x10 = true ∧ isPlainOffset 0x3F = true) := by decide

theorem witness_WindowRegisterAccesses_port :
    (ready.port.access = .none ∧ ready.port.rd = true ∧ (pins false false true 0x16 0).rd = false ∧
      hostReadRow 0x16 = some .bufDataRead ∧ hostReadRow 0x00 = none ∧ ready.readRegister 0x00 = some 0x3A) ∧
    (ready.port.cs = true ∧ (pins false true false 0x06 5).cs = false) ∧
    (drive ready [pins false false true 0x00 0]).port.access = .read ∧
    (writing.port.access = .write { Events.clear with stall := true } ∧ (pins true true true 0x06 5).cs = true ∧
      ∀ f ∈ [LatchedFlag.stall, .conflict, .accessFault],
        { Events.clear with stall := true }.get f = ({ Events.clear with stall := true }.get f || writing.events.get f)) := by
  decide

theorem witness_BufDataAccess :
    (hostBuffer.resetHeld = false ∧ hostBuffer.bufSelect.toNat < 64 ∧ hostBuffer.owner 0 = some .host ∧
      hostBuffer.memory.wf = true) ∧
    ({ resultBuffer with bufSelect := 5 }.bufSelect.toNat = 5 ∧ resultBuffer.owner 5 = some .result) ∧
    (ready.owner 0 ≠ some .host ∧ ready.owner 0 ≠ some .result) ∧ 64 ≤ { ready with bufSelect := 64 }.bufSelect.toNat := by
  decide

/-- The same state with a DE lead and a DE trail of 0 bit times. -/
def withoutTrail (s : State) : State :=
  { s with lineConfig := { LineConfig.afterReset with deLead := 0, deTrail := 0 } }

theorem witness_CallTimersRule :
    ((flying exchange .gap).context = some exchange ∧ (flying exchange .gap).lineQuiet = true ∧
      (flying exchange .gap).lineConfig.deLead ≠ 0) ∧
    (withoutTrail (flying exchange .gap)).lineConfig.deLead = 0 ∧ (calling exchange .lead).tx = .lead ∧
    ((0x33 : Byte).toNat % 8 = 3 ∧ (0x33 : Byte).getLsbD 3 = false ∧ (0x33 : Byte).getLsbD 4 = true ∧
      (0x33 : Byte).getLsbD 5 = true ∧ (0x33 : Byte).getLsbD 6 = false ∧ (0x33 : Byte).getLsbD 7 = false) ∧
    ([0x33, 0x02, 0x12, 0x34].foldl (· + ·) 0 + 0x85 = (0 : Byte) ∧
      [0x33, 0x02, 0x12, 0x34].foldl (· ^^^ ·) 0 = (0x17 : Byte) ∧
      [(0x07 : Byte), 0x33, 0x02, 0x12, 0x34, 0x85, 0x17].length ≤ 6 + 1) ∧
    ((withoutTrail (calling broadcast (.sending 6 0x17 false true))).lineConfig.deTrail = 0 ∧
      (withoutTrail (calling broadcast (.sending 6 0x17 false true))).context = some broadcast) ∧
    (calling exchange (.sending 6 0 false true)).lineConfig.deTrail ≠ 0 ∧
    (calling exchange .trail).tx = .trail ∧ exchange.station ≠ 0 ∧ broadcast.station = 0 := by decide

theorem witness_CallIsSentWhole :
    (flying exchange .gap).resetHeld = false ∧ (flying exchange .gap).phase = .gap ∧
    (flying exchange .gap).receiver = Receiver.ready ∧ (flying exchange .gap).context = some exchange ∧
    1 ≤ exchange.station ∧ exchange.station ≤ 31 := by decide

theorem witness_EchoCheckRule :
    ((inside (calling exchange (.sending 0 0x07 true false))).de = true ∧
      (inside (calling exchange (.sending 0 0x07 true false))).receiver.canDeliver = true ∧
      (inside (calling exchange (.sending 0 0x07 true false))).rxParity.passes 0x07 true true = true) ∧
    (calling exchange .lead).tx = .lead ∧
    (inside { calling exchange .lead with lineConfig := { LineConfig.afterReset with parity := .odd } }).rxParity.passes
      0x07 true true = true := by decide

theorem witness_CollisionRule :
    (calling exchange .lead).context = some exchange ∧ exchange.collisions + 1 < 4 ∧ exchange.cancelPending = false ∧
    { exchange with cancelPending := true }.cancelPending = true ∧ poll.origin ≠ .request ∧
    4 ≤ { exchange with collisions := 3 }.collisions + 1 ∧
    ((calling { broadcast with collisions := 3, cancelPending := true } .lead).context =
        some { broadcast with collisions := 3, cancelPending := true } ∧ broadcast.origin = .request) := by decide

theorem witness_StartBitsRule :
    (running.resetHeld = false ∧ running.receiver.canStart = true ∧ running.phase ≠ .waiting) ∧
    ((flying exchange .waiting).receiver.canStart = true ∧ (flying exchange .waiting).phase = .waiting) ∧
    ({ exchange with lastDetail := some .silent }.answerBuffer = some 1 ∧
      { exchange with lastDetail := some .silent }.lastDetail.isSome = true) ∧
    (exchange.lastDetail = none ∧ exchange.verdict = none) ∧
    { running with receiver := ⟨none, true, false, false⟩ }.receiver.heldSpace = true ∧
    ({ flying broadcast .settling with receiver := ⟨none, true, false, false⟩ }.context = some broadcast ∧
      broadcast.station = 0 ∧ exchange.station ≠ 0 ∧
      { exchange with verdict := some (.badAnswer .parity) }.verdict.isSome = true) ∧
    { running with receiver := ⟨none, false, true, false⟩ }.receiver.awaitMark = true := by decide

theorem witness_CharactersOutsideAnAnswer :
    ((inside running).resetHeld = false ∧ (inside running).de = false ∧ (inside running).receiver.canDeliver = true ∧
      (inside running).mode ≠ .stopped) ∧
    (inside running).rxParity.isSpaceCharacter 0 false false false = true ∧
    (inside running).rxParity.isSpaceCharacter 0x07 true true true = false ∧
    ((inside running).rxParity.passes 0x07 true true && true) = true ∧
    (inside (flying exchange .settling)).context = some exchange ∧ broadcast.station = 0 ∧
    (inside (flying exchange .gap)).phase = .gap ∧ (inside (flying exchange .holdoff)).phase = .holdoff ∧
    (inside ready).mode = .stopped := by decide

theorem witness_AnswerCharacterTests :
    ((inside (flying exchange .receiving)).receiver.canDeliver = true ∧
      (inside (flying exchange .receiving)).de = false ∧ (inside (flying exchange .receiving)).mode ≠ .stopped ∧
      (inside (flying exchange .receiving)).reception.taken = 0) ∧
    (inside (flying exchange .receiving)).rxParity.isSpaceCharacter 0x88 true true true = false ∧
    ((0x07 : Byte).toNat / 32 ≠ 4 ∧ (0x88 : Byte).toNat / 32 = 4 ∧ (0x88 : Byte).toNat % 32 ≠ exchange.station) ∧
    Parity.odd.passes 0x07 true false = false ∧ 32 < (33 : Byte).toNat ∧
    { exchange with verdict := some .noAnswer }.verdict.isSome = true := by decide

/-- The table of R12: code, kind, the calls after which it is valid, and the lengths. -/
def answerTable : List (Nat × AnswerKind × List CallKind × Nat × Nat) :=
  [(1, .accept, [.write], 0, 0), (2, .data, [.read, .exchange], 0, 32), (3, .busy, [.write, .read, .exchange], 0, 0),
    (4, .refuse, [.write, .read, .exchange], 1, 1), (5, .report, [.poll], 1, 32), (6, .nothing, [.poll], 0, 0)]

theorem witness_AnswerTelegramJudged :
    ((flying exchange .waiting).resetHeld = false ∧ (flying exchange .waiting).de = false ∧
      (flying exchange .waiting).mode ≠ .stopped ∧ (flying exchange .waiting).receiver = Receiver.ready ∧
      (flying exchange .waiting).memory.wf = true ∧ exchange.verdict = none ∧ ∀ b ∈ exchange.answerBuffer, b < 64) ∧
    ([(0x0A : Byte), 0x03, 0x12, 0x34, 0x56].foldl (· + ·) 0 + 0x57 = 0 ∧
      (0x79 : Byte) = [(0x0A : Byte), 0x03, 0x12, 0x34, 0x56].foldl (· ^^^ ·) 0) ∧
    ((0x0A : Byte).toNat % 8, AnswerKind.data, [CallKind.read, .exchange], 0, 32) ∈ answerTable ∧
    exchange.kind ∈ [CallKind.read, .exchange] := by decide

/-- The failing closing tests: a wrong Check A; control 0x22, whose sync bit is 1; the kinds 0, 7 and ACCEPT after an
EXCHANGE; and BUSY of length 1. -/
theorem witness_AnswerTelegramJudged_fails :
    [(0x02 : Byte), 0].foldl (· + ·) 0 + 0xFF ≠ 0 ∧
    (([(0x22 : Byte), 0].foldl (· + ·) 0 + 0xDE = 0 ∧ (0x22 : Byte) = [(0x22 : Byte), 0].foldl (· ^^^ ·) 0) ∧
      32 ≤ (0x22 : Byte).toNat) ∧
    (∀ row ∈ answerTable, row.1 ≠ (0x00 : Byte).toNat % 8 ∧ row.1 ≠ (0x1F : Byte).toNat % 8) ∧
    (∀ row ∈ answerTable, row.1 = (0x01 : Byte).toNat % 8 → exchange.kind ∉ row.2.2.1) ∧
    ((3, AnswerKind.busy, [CallKind.write, .read, .exchange], 0, 0) ∈ answerTable ∧ ¬ [(0x12 : Byte)].length ≤ 0) := by
  decide

/-- R95: the whole answer BUSY of length 1, its checks in agreement, is LENGTH_RANGE; with bit 6 of its control character
set it is WRONG_KIND. -/
theorem test_closing_tests :
    (execAll (telegramArrivals .none (telegram 0x87 0x03 [0x12])) (flying exchange .waiting) matches
      .next { phase := .settling, context := some { verdict := some (.badAnswer .lengthRange), .. }, .. }) = true ∧
    (execAll (telegramArrivals .none (telegram 0x87 0x43 [0x12])) (flying exchange .waiting) matches
      .next { phase := .settling, context := some { lastDetail := some .wrongKind, .. }, .. }) = true := by decide

theorem witness_AnswerTimersRule :
    (flying exchange .waiting).context = some exchange ∧
    { flying exchange .receiving with timer := ⟨.characterGap, 33⟩ }.timer.kind = .characterGap ∧
    (flying exchange .receiving).lineQuiet = true ∧ exchange.verdict = none ∧
    ((after .breakDetected (flying exchange .receiving)).phase = .receiving ∧
      (after .breakDetected (flying exchange .receiving)).receiver.lineInBreak = true ∧
      (after .breakDetected (flying exchange .receiving)).context.isSome = true) ∧
    { exchange with verdict := some .noAnswer }.verdict.isSome = true := by decide

theorem witness_BreakRule :
    (running.resetHeld = false ∧ running.receiver.lineInBreak = false ∧ running.phase = .idle) ∧
    ((flying exchange .receiving).context = some exchange ∧ exchange.verdict = none) ∧
    ((after .breakDetected running).receiver.lineInBreak = true ∧ (after .breakDetected running).mode ≠ .stopped) ∧
    (after .breakDetected ready).mode = .stopped ∧
    ((after .breakDetected (flying exchange .receiving)).phase = .receiving ∧
      (after .breakDetected (flying exchange .settling)).phase = .settling) := by decide

theorem witness_SettleAndHoldoffExpiry :
    ((flying exchange .settling).lineQuiet = true ∧
      (flying { exchange with verdict := some .noAnswer } .settling).takeVerdict.context.isSome = true) ∧
    (flying broadcast .settling).takeVerdict.context = none ∧ (flying exchange .holdoff).context.isSome = true ∧
    { running with phase := .holdoff }.context = none ∧
    ({ running with phase := .holdoff, mode := .draining }.mode = .draining ∧
      { running with phase := .holdoff, mode := .draining }.context = none) ∧ running.mode ≠ .draining := by decide

theorem witness_RequestDecision :
    ((flying exchange .settling).context = some exchange ∧ exchange.origin = .request ∧ exchange.station ≠ 0) ∧
    (((flying exchange .settling).station 7).state = .unknown ∧
      ((withStation { flying exchange .settling with limits := { Limits.afterReset with offlineThreshold := 1 } } 7
        online).entryAfter exchange .noAnswer).state = .offline) ∧
    (exchange.cancelPending = false ∧ exchange.attempts < exchange.retryLimit + 1 ∧
      { exchange with attempts := 3 }.retryLimit + 1 ≤ 3) ∧
    ((flying exchange .settling).QueueOk ∧ (flying exchange .settling).owner 0 = some .line ∧
      (flying exchange .settling).owner 1 = some .line ∧ (0 : Nat) ≠ 1) := by decide

theorem witness_ReportJudgement :
    (flying broadcast .settling).context = some broadcast ∧ (flying poll .settling).context = some poll ∧
    (flying poll .settling).stations.length = 31 ∧ poll.origin ≠ .request ∧
    ((withStation (flying poll .settling) 7 online).entryAfter poll (.valid .report 2 false none)).synced = true ∧
    ((withStation (flying poll .settling) 7 online).entryAfter poll (.valid .report 2 false none)).lastReport ≠ false := by
  decide

theorem witness_ClosingOfTransaction :
    ((flying exchange .settling).owner 0 = some .line ∧ (flying exchange .settling).owner 1 = some .line ∧
      (0 : Nat) ≠ 1) ∧ { exchange.record .done with buffer := some 1 }.buffer.isSome = true ∧
    (exchange.record .done).buffer.isSome = false := by decide

theorem witness_EligibleRequestRule :
    { running with queue := [{ readRequest 1 9 with holdUntil := some 5 }, readRequest 2 9, readRequest 3 5]
      }.eligibleRequest = some (readRequest 3 5) ∧ running.eligibleRequest = none := by decide

theorem witness_DueStationRule :
    1 ≤ (withStation running 31 { online with pollPeriod := 1 }).pollPointer ∧
    (withStation running 31 { online with pollPeriod := 1 }).pollPointer ≤ 31 ∧
    (withStation running 31 { online with pollPeriod := 1 }).dueStation = some 31 ∧ running.dueStation = none := by
  decide

theorem witness_LookOutcomes :
    (¬ (ready.mode = .running ∧ ready.phase = .idle ∧ ready.context = none)) ∧
    (running.mode = .running ∧ running.phase = .idle ∧ running.context = none ∧ running.results.length < 24) ∧
    (24 ≤ (List.replicate 24 takenExample).length ∧ ∃ r ∈ [readRequest 1 9], r.holdUntil = none) ∧
    ((withStation running 7 { online with pollPeriod := 1 }).dueStation = some 7 ∧ running.freeList ≠ []) ∧
    ({ running with queue := [readRequest 1 9] }.eligibleRequest = some (readRequest 1 9) ∧
      running.consecutive < running.limits.pollShare ∧ (readRequest 1 9).station ≠ 0) := by decide

theorem witness_DispatchSteps :
    (readRequest 1 9 ∈ [readRequest 1 9] ∧ (readRequest 1 9).kind ≠ .write ∧ running.owner 0 = some .free ∧
      ∃ rest, running.freeList = 0 :: rest) ∧
    ({ readRequest 5 1 with kind := .write, outBuffer := some 0 } ∈ queuedBuffer.queue ∧
      queuedBuffer.owner 0 = some .queued ∧ queuedBuffer.queue.length ≤ 16) :=
  ⟨⟨by decide, by decide, by decide, _, rfl⟩, by decide⟩

theorem witness_TimebaseRows :
    (running.resetHeld = false ∧ running.tick10Given = false ∧ running.tick100Given = false) ∧
    (after .timeCounterTick (atTicks online)).tick10Given = true ∧
    ((after .tenMsTick (after .timeCounterTick (atTicks online))).tick10Given = false ∧
      (after .tenMsTick (after .timeCounterTick (atTicks online))).tick100Given = true) ∧
    (((withStation running 7 { online with pollPeriod := 1 }).station 7).state = .online ∧
      0 < ((withStation running 7 { online with pollPeriod := 1 }).station 7).pollPeriod ∧
      ((withStation running 7 { online with pollPeriod := 1 }).station 7).pollCountdown = 0) ∧
    ((withStation running 7 { online with state := .offline }).station 7).probeCountdown = 0 ∧
    ∃ r ∈ { running with queue := [{ readRequest 5 9 with holdUntil := some 0 }] }.queue,
      r.holdUntil = some running.timeCounter := by decide

/-- A READY part with a START waiting. -/
def starting : State :=
  { ready with pending := [.start] }

theorem witness_StepKeepsBuffers : starting.BuffersOk ∧ ∃ t : State, step starting = .next t := ⟨by decide, _, rfl⟩

theorem witness_StepKeepsSlotsAndQueue :
    starting.SlotsOk ∧ starting.QueueOk ∧ ∃ t : State, step starting = .next t := ⟨by decide, by decide, _, rfl⟩

theorem witness_StepKeepsLine : starting.LineOk ∧ ∃ t : State, step starting = .next t := ⟨by decide, _, rfl⟩

/-- A part in the last attempt of an EXCHANGE that has met three collisions, with the holdoff's end waiting. -/
def lastTry : State :=
  { flying { exchange with retryLimit := 7, attempts := 7, collisions := 3, outLength := 32 } .holdoff with
    pending := [.holdoffExpiry] }

theorem witness_StepKeepsRanges :
    (starting.StationsOk ∧ starting.RangesOk ∧ ∃ t : State, step starting = .next t) ∧
    lastTry.LineOk ∧ lastTry.RecordsOk ∧ ∃ t : State, step lastTry = .next t :=
  ⟨⟨by decide, by decide, _, rfl⟩, by decide, by decide, _, rfl⟩

theorem witness_StepKeepsMemoryForm :
    { starting with memory := [(0, 1), (2047, 2)] }.memory.wf = true ∧
    ∃ t : State, step { starting with memory := [(0, 1), (2047, 2)] } = .next t := ⟨by decide, _, rfl⟩

end Sys2Proof.Tests
end

section
/-! SUPPORT. The rules that the statements about the station line share: a row while RESET# is high, runs of several
rows, the timers that a phase loads again, and the entry of a station that a verdict has reached. -/

namespace Sys2Proof.Machine

/-! ## Rows and runs -/

/-- A row that RESET# holds off is its own step while RESET# is high (R153). -/
theorem exec_of_live {i : Instr} {f : State → State} {s : State} (hi : exec i s = .next (s.live f))
    (hs : s.resetHeld = false) : exec i s = .next (f s) := by
  rw [hi, State.live, if_neg (by simp [hs])]

/-- A command handed over in READY does its work in the state that holds its code and its arguments (R171). -/
theorem State.hostCommand_of_takes {s : State} (h : s.TakesCommand) (code : Byte) (work : State → Handled) :
    s.hostCommand code work =
      (work (s.handedOver code)).state.answering (work (s.handedOver code)).code
      (work (s.handedOver code)).replies := by
  obtain ⟨hheld, hunit⟩ := h
  rcases s.hostCommand_cases code work with ⟨hr, -⟩ | ⟨-, hu, -⟩ | ⟨-, -, heq⟩
  · simp [hheld] at hr
  · exact absurd hunit hu
  · exact heq

/-- A run of rows that follows another starts where that one ends. -/
theorem execAll_append {before after : List Instr} {s t : State} (h : execAll before s = .next t) :
    execAll (before ++ after) s = execAll after t := by
  induction before generalizing s with
  | nil => cases h; rfl
  | cons i rest ih =>
    simp only [List.cons_append, execAll] at h ⊢
    split at h
    · exact ih h
    · cases h
    · cases h

/-- A run of rows whose first row answers a next state goes on from there. -/
theorem execAll_cons {i : Instr} {rest : List Instr} {s t : State} (h : exec i s = .next t) :
    execAll (i :: rest) s = execAll rest t := by
  rw [execAll, h]

/-! ## Timers loaded again -/

/-- In GAP, entering GAP only loads its timer (R88). -/
theorem State.enterGap_of_gap {s : State} (h : s.phase = .gap) :
    s.enterGap = { s with timer := ⟨.telegramGap, s.lineConfig.telegramGap * s.characterBits⟩ } :=
  h ▸ rfl

/-- In HOLDOFF, entering HOLDOFF only loads its timer (R105). -/
theorem State.enterHoldoff_of_holdoff {s : State} (h : s.phase = .holdoff) :
    s.enterHoldoff = { s with timer := ⟨.holdoff, s.lineConfig.holdoff * s.characterBits⟩ } :=
  h ▸ rfl

/-- In SETTLING, entering SETTLING only loads its timer (R98). -/
theorem State.enterSettling_of_settling {s : State} (h : s.phase = .settling) :
    s.enterSettling = { s with timer := ⟨.settle, s.lineConfig.telegramGap * s.characterBits⟩ } :=
  h ▸ rfl

/-! ## Entries of the Station Table -/

/-- A replaced entry changes the Station Table and nothing else. -/
theorem State.setStation_eq (s : State) (a : Nat) (e : Station) :
    s.setStation a e = { s with stations := (s.setStation a e).stations } := by
  cases a <;> rfl

/-- The sequence fields after a valid answer, in one record: a synchronising call, or a synced entry, lets an answer
by which the station has acted flip the call toggle (R17). -/
theorem Station.sequenceAfter_eq (e : Station) (kind : AnswerKind) (syncSent : Bool) :
    e.sequenceAfter kind syncSent =
      { e with
        synced := e.synced || syncSent
        callToggle := if (e.synced || syncSent) && kind.acts then !e.callToggle else e.callToggle } := by
  unfold Station.sequenceAfter
  cases syncSent with
  | true => cases e; simp
  | false =>
    split
    · rename_i h; cases h
    · split <;> rename_i h <;> cases e <;> simp_all

/-- The health fields after a valid answer, in one record (R21, R26). -/
theorem Station.healthyAfter_eq (e : Station) :
    e.healthyAfter =
      { e with
        state := if e.state = .disabled then .disabled else .online
        failCount := if e.state = .disabled then e.failCount else 0
        changed := e.changed || (e.state != .disabled && e.state != .online)
        pollCountdown := if e.state = .offline then e.pollPeriod else e.pollCountdown } := by
  unfold Station.healthyAfter
  by_cases h : e.state = .disabled
  · cases e; simp_all
  · rw [if_neg h, if_neg h, if_neg h, bne_iff_ne.2 h, Bool.true_and]

/-- The kinds by which a station has acted are ACCEPT, DATA and REFUSE (R17). -/
theorem AnswerKind.acts_eq (k : AnswerKind) : k.acts = (k == .accept || k == .data || k == .refuse) := by
  cases k <;> rfl

/-- A failed attempt at a DISABLED station is only counted (R26, R38). -/
theorem Station.takeFailure_of_disabled {e : Station} (threshold probe : Nat) (h : e.state = .disabled) :
    e.takeFailure threshold probe = { e with failedAttempts := satInc 65535 e.failedAttempts } := by
  simp [Station.takeFailure, Station.failedAfter, h]

/-- A failed attempt at an OFFLINE station raises its fail count (R22). -/
theorem Station.takeFailure_of_offline {e : Station} (threshold probe : Nat) (h : e.state = .offline) :
    e.takeFailure threshold probe =
      { e with failCount := satInc 15 e.failCount, failedAttempts := satInc 65535 e.failedAttempts } := by
  simp [Station.takeFailure, Station.failedAfter, h]

/-- A failed attempt at any other station leaves it SUSPECT below the offline threshold, and OFFLINE, its synced
flag clear and its probe countdown loaded, from the threshold on (R22, R23). -/
theorem Station.takeFailure_of_served {e : Station} (threshold probe : Nat) (hd : e.state ≠ .disabled)
    (ho : e.state ≠ .offline) :
    e.takeFailure threshold probe =
      if satInc Config.failCountCap e.failCount < threshold then
        { e with
          failCount := satInc Config.failCountCap e.failCount
          state := .suspect
          changed := e.changed || e.state != .suspect
          failedAttempts := satInc 65535 e.failedAttempts }
      else
        { e with
          failCount := satInc Config.failCountCap e.failCount
          state := .offline
          changed := true
          synced := false
          probeCountdown := probe
          failedAttempts := satInc 65535 e.failedAttempts } := by
  unfold Station.takeFailure Station.failedAfter
  split
  · exact absurd ‹_› hd
  · exact absurd ‹_› ho
  all_goals
    by_cases hn : satInc Config.failCountCap e.failCount < threshold
    · rw [if_pos hn, if_pos hn]
      rfl
    · rw [if_neg hn, if_neg hn]
      rfl

/-- A failed attempt reaches the table whatever its detail (R22). -/
theorem State.entryAfter_of_failure {s : State} {c : Context} {v : Verdict}
    (hv : v = .noAnswer ∨ ∃ d : Detail, v = .badAnswer d) :
    s.entryAfter c v = (s.station c.station).takeFailure s.limits.offlineThreshold s.limits.probeInterval := by
  rcases hv with rfl | ⟨d, rfl⟩ <;> rfl

/-- Settles O29: the table's rule for a valid answer, and its three rules for a failure, by the state of the entry. -/
theorem stationTakesVerdict : Obligations.StationTakesVerdict := by
  rintro s c e syncSent n rfl rfl rfl
  refine ⟨fun k length ack refusal => ?_, fun v hv => ?_⟩
  · simp only [State.entryAfter, Station.takeValid, Station.healthyAfter_eq, Station.sequenceAfter_eq,
      AnswerKind.acts_eq]
    rfl
  · rw [State.entryAfter_of_failure hv]
    exact ⟨Station.takeFailure_of_disabled _ _, Station.takeFailure_of_offline _ _,
      fun hd ho hn => (Station.takeFailure_of_served _ _ hd ho).trans (if_pos hn),
      fun hd ho hn => (Station.takeFailure_of_served _ _ hd ho).trans (if_neg (Nat.not_lt.2 hn))⟩

/-! ## Endings -/

/-- A valid REPORT that is set aside, or that repeats the last one, is counted and posts nothing (R79). -/
theorem State.judgeReport_of_duplicate {s : State} {c : Context} {ack : Bool} (length : Nat)
    (h : (s.station c.station).synced = false ∨ ack = (s.station c.station).lastReport) :
    s.judgeReport c length ack =
      (s.setStation c.station (s.station c.station).countDuplicate).close c none false := by
  rw [State.judgeReport, if_neg]
  rintro ⟨hsynced, hack⟩
  rcases h with h | h
  · simp [h] at hsynced
  · exact hack h

/-- A valid REPORT whose ack bit differs from a synced entry's last-report toggle is new: it moves the toggle and is
posted (R77, R78). -/
theorem State.judgeReport_of_new {s : State} {c : Context} {ack : Bool} (length : Nat)
    (hsynced : (s.station c.station).synced = true) (hack : ack ≠ (s.station c.station).lastReport) :
    s.judgeReport c length ack =
      (s.setStation c.station { s.station c.station with lastReport := ack }).close c (some (c.reportRecord length))
        false := by
  rw [State.judgeReport, if_pos ⟨hsynced, hack⟩]

/-- A broadcast whose settle time is over ends DONE, with no synced flag to clear (R11, R99). -/
theorem State.takeVerdict_of_broadcast {s : State} {c : Context} (hc : s.context = some c) (h0 : c.station = 0) :
    s.takeVerdict = s.close c (some { c.record .done with cancelRequested := c.cancelPending }) false := by
  simp [State.takeVerdict, hc, h0, State.endRequest, Context.clearsSync]

/-- The verdict of a poll or probe is decided on the entry that the table has left (R99). -/
theorem State.takeVerdict_of_poll {s : State} {c : Context} {v : Verdict} (hc : s.context = some c)
    (h0 : c.station ≠ 0) (ho : c.origin ≠ .request) (hv : c.verdict = some v) :
    s.takeVerdict = (s.setStation c.station (s.entryAfter c v)).decidePoll c v := by
  simp only [State.takeVerdict, hc, h0, hv, if_false]
  cases horigin : c.origin with
  | request => exact absurd horigin ho
  | poll => rfl
  | probe => rfl

/-- A poll or probe that did not bring a REPORT ends with nothing posted (R77). -/
theorem State.decidePoll_of_no_report {s : State} {c : Context} {v : Verdict}
    (h : ∀ (n : Nat) (ack : Bool) (code : Option Byte), v ≠ .valid .report n ack code) :
    s.decidePoll c v = s.close c none false := by
  cases v with
  | noAnswer => rfl
  | badAnswer d => rfl
  | valid k n ack code =>
    cases k with
    | report => exact absurd rfl (h n ack code)
    | accept => rfl
    | data => rfl
    | busy => rfl
    | refuse => rfl
    | nothing => rfl

/-- Settles O48: a broadcast ends by its own rule; a poll or probe is decided on the table's entry, which the
report's judgement reads back. -/
theorem reportJudgement : Obligations.ReportJudgement := by
  rintro s told c v e hc rfl rfl
  refine ⟨State.takeVerdict_of_broadcast hc, fun hlow hhigh hlen ho hv => ?_⟩
  have hentry : (s.setStation c.station (s.entryAfter c v)).station c.station = s.entryAfter c v :=
    State.station_setStation_same _ hlow (by omega)
  rw [State.takeVerdict_of_poll hc (by omega) ho hv]
  refine ⟨fun n ack code hreport => ?_, State.decidePoll_of_no_report⟩
  have hdecide : (s.setStation c.station (s.entryAfter c v)).decidePoll c v =
      (s.setStation c.station (s.entryAfter c v)).judgeReport c n ack := by rw [hreport]; rfl
  rw [hdecide]
  refine ⟨fun hsynced hack => ?_, fun hold => ?_⟩
  · rw [State.judgeReport_of_new n (by rwa [hentry]) (by rwa [hentry]), hentry]
    rfl
  · rw [State.judgeReport_of_duplicate n (by rwa [hentry]), hentry]
    rfl

/-- An early closing of a request posts its record with the outcome (R52, R91, R146). -/
theorem State.closeEarly_of_request {c : Context} (s : State) (outcome : ResultOutcome) (cancelRequested taken : Bool)
    (ho : c.origin = .request) :
    s.closeEarly c outcome cancelRequested taken =
      s.close c (some { c.record outcome with cancelRequested := cancelRequested }) (c.clearsSync taken) := by
  simp [State.closeEarly, ho]

/-- An early closing of a poll or probe posts nothing (R80). -/
theorem State.closeEarly_of_poll {c : Context} (s : State) (outcome : ResultOutcome) (cancelRequested taken : Bool)
    (ho : c.origin ≠ .request) : s.closeEarly c outcome cancelRequested taken = s.close c none false := by
  unfold State.closeEarly
  split
  · exact absurd ‹_› ho
  · rfl
  · rfl

/-- ABORT with nothing in flight stops the line (R146). -/
theorem abortWork_of_idle {s : State} (h : s.context = none) :
    abortWork s = { state := s.releaseLine.becomeStopped, code := .ok, replies := Replies.zero } := by
  simp [abortWork, h]

/-- ABORT closes the transaction in flight before it stops the line, and replies with the ticket of a request
(R146). -/
theorem abortWork_of_flight {s : State} {c : Context} (h : s.context = some c) :
    abortWork s =
      { state := (s.releaseLine.closeEarly c .aborted c.cancelPending false).becomeStopped
        code := .ok
        replies := if c.origin = .request then Replies.of 0 c.ticket 1 0 else Replies.zero } := by
  simp [abortWork, h]

/-- Settles O21: ABORT with nothing in flight, with a request or broadcast, and with a poll or probe. -/
theorem abortRule : Obligations.AbortRule := by
  rintro s released htakes rfl
  have habort : exec .abort s = .next (s.hostCommand 0x08 abortWork) := rfl
  rw [habort, State.hostCommand_of_takes htakes]
  refine ⟨fun hc => ?_, fun c closed hc => ⟨?_, ?_⟩⟩
  · rw [abortWork_of_idle (s := s.handedOver 0x08) hc]
    rfl
  · intro ho hclosed
    have hclear : c.clearsSync false = (c.station != 0 && c.callBits.isSome) := by simp [Context.clearsSync, ho]
    have hearly : (s.handedOver 0x08).releaseLine.closeEarly c .aborted c.cancelPending false = closed := by
      rw [State.closeEarly_of_request _ _ _ _ ho, hclear]
      exact hclosed.symm
    rw [abortWork_of_flight (s := s.handedOver 0x08) hc, if_pos ho, hearly]
    rfl
  · intro ho hclosed
    have hearly : (s.handedOver 0x08).releaseLine.closeEarly c .aborted c.cancelPending false = closed :=
      (State.closeEarly_of_poll _ _ _ _ ho).trans hclosed.symm
    rw [abortWork_of_flight (s := s.handedOver 0x08) hc, if_neg ho, hearly]
    rfl

end Sys2Proof.Machine
end

section
/-! SUPPORT. The line characters and the sending of a call: parity and frames, the receiver's delivery, the echo
check, and the call from GAP to the wait for its answer. -/

namespace Sys2Proof.Machine

/-! ## Bits and parity (R1, R2) -/

/-- A mark bit counts 1. -/
@[simp] theorem bitOf_true : bitOf true = 1 := rfl

/-- A space bit counts 0. -/
@[simp] theorem bitOf_false : bitOf false = 0 := rfl

/-- A running exclusive OR tells whether the count of 1 bits is odd. -/
theorem foldl_xor_eq (bits : List Bool) (b : Bool) :
    bits.foldl xor b = decide ((bits.count true + bitOf b) % 2 = 1) := by
  induction bits generalizing b with
  | nil => cases b <;> rfl
  | cons x rest ih =>
    rw [List.foldl_cons, ih, List.count_cons, decide_eq_decide]
    cases x <;> cases b <;> simp; omega

/-- The 1 bits among D0..D7 and M. -/
theorem oddOnes_eq (d : Byte) (m : Bool) : oddOnes d m = decide ((dataBits d ++ [m]).count true % 2 = 1) := by
  rw [oddOnes, foldl_xor_eq, decide_eq_decide]
  cases m <;> simp [List.count_append]

/-- A received parity bit adds itself to the 1 bits. -/
theorem count_received (bits : List Bool) (m p : Bool) :
    (bits ++ [m, p]).count true = (bits ++ [m]).count true + bitOf p := by
  cases m <;> cases p <;> simp [List.count_append]

/-- EVEN passes a character whose 1 bits are even in number (R2). -/
theorem Parity.even_passes_iff (d : Byte) (m p : Bool) :
    Parity.even.passes d m p = true ↔ (dataBits d ++ [m, p]).count true % 2 = 0 := by
  rw [count_received]
  simp only [Parity.passes, Parity.bit, oddOnes_eq]
  cases p <;> simp; omega

/-- ODD passes a character whose 1 bits are odd in number (R2). -/
theorem Parity.odd_passes_iff (d : Byte) (m p : Bool) :
    Parity.odd.passes d m p = true ↔ (dataBits d ++ [m, p]).count true % 2 = 1 := by
  rw [count_received]
  simp only [Parity.passes, Parity.bit, oddOnes_eq]
  cases p <;> simp; omega

/-- A space character has every sampled bit at space (R106). -/
theorem Parity.isSpaceCharacter_iff (q : Parity) (d : Byte) (m p st : Bool) :
    q.isSpaceCharacter d m p st = true ↔ d = 0 ∧ m = false ∧ (q ≠ .none → p = false) ∧ st = false := by
  cases q <;> simp [Parity.isSpaceCharacter] <;> tauto

/-- A character sent with its own parity bit passes the check (R2). -/
@[simp] theorem Parity.passes_sent (q : Parity) (d : Byte) (m : Bool) : q.passes d m (q.sent d m) = true := by
  cases q <;> simp [Parity.passes, Parity.sent, Parity.bit]

/-- A character whose stop bit is mark is no space character (R106). -/
@[simp] theorem Parity.isSpaceCharacter_stop (q : Parity) (d : Byte) (m p : Bool) :
    q.isSpaceCharacter d m p true = false := by
  simp [Parity.isSpaceCharacter]

/-- A bit of a byte as a digit of its value. -/
theorem toNat_div_two_pow_mod_two (x : Byte) (i : Nat) : x.toNat / 2 ^ i % 2 = bitOf (x.getLsbD i) := by
  rw [BitVec.getLsbD, Nat.testBit_eq_decide_div_mod_eq, bitOf]
  split <;> simp_all

/-- The three high bits of a byte, as a number. -/
theorem toNat_div_32 (x : Byte) :
    x.toNat / 32 = bitOf (x.getLsbD 5) + 2 * bitOf (x.getLsbD 6) + 4 * bitOf (x.getLsbD 7) := by
  have h5 : x.toNat / 32 % 2 = bitOf (x.getLsbD 5) := toNat_div_two_pow_mod_two x 5
  have h6 : x.toNat / 64 % 2 = bitOf (x.getLsbD 6) := toNat_div_two_pow_mod_two x 6
  have h7 : x.toNat / 128 % 2 = bitOf (x.getLsbD 7) := toNat_div_two_pow_mod_two x 7
  have hlt := x.isLt
  omega

/-! ## The receiver (R4) -/

/-- When the receiver can deliver (R4, R106). -/
theorem Receiver.canDeliver_iff (r : Receiver) :
    r.canDeliver = true ↔ r.heldSpace = false ∧ r.awaitMark = false ∧ r.lineInBreak = false := by
  simp [Receiver.canDeliver, and_assoc]

/-- When a start bit can be confirmed (R4). -/
theorem Receiver.canStart_iff (r : Receiver) : r.canStart = true ↔ r.inCharacter = none ∧ r.canDeliver = true := by
  simp [Receiver.canStart]

/-- The receiver out of the character that it has sampled and, after a framing failure, waiting for mark (R4). -/
def State.sampled (s : State) (stop : Bool) : State :=
  { s with receiver := { s.receiver with inCharacter := none, awaitMark := !stop } }

/-- A character that is not held back is handled at once (R4, R106). -/
theorem State.deliver_of_taken {s : State} {d : Byte} {m p st : Bool} (hcan : s.receiver.canDeliver = true)
    (hspace : s.rxParity.isSpaceCharacter d m p st = false ∨ s.de = true) :
    s.deliver d m p st = (s.sampled st).takeCharacter (s.judgeSamples d m p st) := by
  rw [State.deliver, if_pos hcan, if_neg, State.sampled]
  rcases hspace with h | h <;> simp [h]

/-- The receiver inside a character, at the bit rate and parity in force (R4, R110). -/
def State.insideCharacter (s : State) : State :=
  { s with receiver := { s.receiver with inCharacter := some ⟨s.lineConfig.bitRate, s.lineConfig.parity⟩ } }

/-- A start bit outside WAITING only brings the receiver into a character (R4). -/
theorem State.startCharacter_of_not_waiting {s : State} (hstart : s.receiver.canStart = true)
    (hw : s.phase ≠ .waiting) :
    s.startCharacter = s.insideCharacter := by
  simp [State.startCharacter, hstart, hw, State.insideCharacter]

/-- A ready receiver is ready again after a character with a stop bit. -/
theorem State.insideCharacter_sampled {s : State} (h : s.receiver = Receiver.ready) :
    s.insideCharacter.sampled true = s := by
  have hrx : ({ s.receiver with inCharacter := none, awaitMark := false } : Receiver) = s.receiver := by rw [h]; rfl
  calc s.insideCharacter.sampled true
      = { s with receiver := { s.receiver with inCharacter := none, awaitMark := false } } := rfl
    _ = s := by rw [hrx]

/-! ## The echo check (R90) -/

/-- While DE is asserted every character goes to the echo check (R90). -/
theorem State.takeCharacter_of_de {s : State} (c : Delivered) (h : s.de = true) :
    s.takeCharacter c = s.echoCheck c := by
  simp [State.takeCharacter, h]

/-- When a character matches the sent one (R90). -/
theorem State.judgeSamples_matchesSent_iff (s : State) (d sent : Byte) (m p st mark : Bool) :
    (s.judgeSamples d m p st).matchesSent sent mark = true ↔
      st = true ∧ s.rxParity.passes d m p = true ∧ d = sent ∧ m = mark := by
  simp [Delivered.matchesSent, Delivered.clean, State.judgeSamples, and_assoc]

/-- A matching character marks the sent one as echoed (R90). -/
theorem State.echoCheck_of_match {s : State} {c : Delivered} {i : Nat} {d : Byte} {m : Bool}
    (htx : s.tx = .sending i d m false) (hc : c.matchesSent d m = true) :
    s.echoCheck c = { s with tx := .sending i d m true } := by
  simp [State.echoCheck, htx, hc]

/-- A character that matches no sent one awaiting its echo is a collision (R90). -/
theorem State.echoCheck_of_no_match {s : State} {c : Delivered}
    (h : ∀ (i : Nat) (d : Byte) (m : Bool), s.tx = .sending i d m false → c.matchesSent d m = false) :
    s.echoCheck c = s.collide := by
  unfold State.echoCheck
  split
  · rename_i htx
    rw [h _ _ _ htx]
    rfl
  all_goals rfl

/-- A character delivered while DE is asserted, space or not, goes to the echo check (R90, R106). -/
theorem exec_characterDelivered_of_de {s : State} (d : Byte) (m p st : Bool) (hs : s.resetHeld = false)
    (hde : s.de = true) (hcan : s.receiver.canDeliver = true) :
    exec (.characterDelivered d m p st) s =
      .next ((s.sampled st).echoCheck (s.judgeSamples d m p st)) := by
  have hexec : exec (.characterDelivered d m p st) s = .next (s.live (·.deliver d m p st)) := rfl
  rw [exec_of_live hexec hs, State.deliver_of_taken hcan (.inr hde),
    State.takeCharacter_of_de (s := s.sampled st) _ hde]

/-- Settles O38: parity and the space character bit by bit, the receiver's readiness, and the echo check's two
answers. -/
theorem echoCheckRule : Obligations.EchoCheckRule := by
  refine ⟨?_, fun s => ⟨fun h => by rw [State.characterBits, h]; rfl, fun h => ?_, fun f hf => ?_,
    s.receiver.canDeliver_iff, s.receiver.canStart_iff⟩, ?_⟩
  · rintro d m p st _ rfl
    exact ⟨rfl, Parity.even_passes_iff d m p, Parity.odd_passes_iff d m p,
      fun q => q.isSpaceCharacter_iff d m p st⟩
  · unfold State.characterBits
    cases hp : s.lineConfig.parity with
    | none => exact absurd hp h
    | even => rfl
    | odd => rfl
  · rw [State.rxParity, Option.mem_def.1 hf]
    rfl
  · rintro s rx d m p st hs hde hcan rfl
    rw [exec_characterDelivered_of_de d m p st hs hde hcan]
    refine ⟨fun i htx hst hp => ?_, fun h => ?_, fun i sent mark htx => ?_⟩
    · rw [State.echoCheck_of_match (s := s.sampled st) htx
        ((s.judgeSamples_matchesSent_iff ..).2 ⟨hst, hp, rfl, rfl⟩)]
      rfl
    · rw [State.echoCheck_of_no_match, State.sampled]
      intro i d' m' htx
      rw [Bool.eq_false_iff]
      intro hmatch
      obtain ⟨hst, hp, rfl, rfl⟩ := (s.judgeSamples_matchesSent_iff ..).1 hmatch
      rcases h with h | h | h
      · exact h i htx
      · simp [hst] at h
      · simp [hp] at h
    · rw [exec_of_live (i := .echoMissing) rfl hs, htx]

/-! ## Telegrams (R5 to R9) -/

/-- The check characters are the only ones that agree with the covered characters (R9). -/
theorem telegram_of_checks {address control a b : Byte} {payload covered : List Byte}
    (hcovered : covered = control :: BitVec.ofNat 8 payload.length :: payload)
    (ha : covered.foldl (· + ·) 0 + a = 0) (hb : b = covered.foldl (· ^^^ ·) 0) :
    telegram address control payload = address :: (covered ++ [a, b]) := by
  subst hcovered hb
  rw [(eq_neg_of_add_eq_zero_right ha).trans (BitVec.zero_sub _).symm]
  rfl

/-- The control character of a call is fixed by its fields (R7, R10). -/
theorem callControl_of_fields {control : Byte} {kind : CallKind} {bits : CallBits}
    (hkind : control.toNat % 8 = kind.code) (htoggle : control.getLsbD 3 = bits.toggle)
    (hack : control.getLsbD 4 = bits.ack) (hsync : control.getLsbD 5 = bits.syncSent)
    (h6 : control.getLsbD 6 = false) (h7 : control.getLsbD 7 = false) : callControl kind bits = control := by
  have d3 : control.toNat / 8 % 2 = bitOf bits.toggle := htoggle ▸ toNat_div_two_pow_mod_two control 3
  have d4 : control.toNat / 16 % 2 = bitOf bits.ack := hack ▸ toNat_div_two_pow_mod_two control 4
  have d5 : control.toNat / 32 % 2 = bitOf bits.syncSent := hsync ▸ toNat_div_two_pow_mod_two control 5
  have d6 : control.toNat / 64 % 2 = bitOf false := h6 ▸ toNat_div_two_pow_mod_two control 6
  have d7 : control.toNat / 128 % 2 = bitOf false := h7 ▸ toNat_div_two_pow_mod_two control 7
  rw [bitOf_false] at d6 d7
  have hlt := control.isLt
  apply BitVec.eq_of_toNat_eq
  rw [callControl, BitVec.toNat_ofNat]
  omega

/-! ## The call goes out (R16, R88, R89) -/

/-- The part as the first character of a call goes onto TXD: the call bits are fixed, and the toggles of the entry
hold their sync values if the call synchronises. -/
def State.callBegun (s : State) (c : Context) (bits : CallBits) : State :=
  { s with
    tx := .sending 0 (callAddress c.station) true false
    timer := LineTimer.off
    context := some { c with callBits := some bits }
    stations :=
      if bits.syncSent then (s.setStation c.station (s.station c.station).syncToggles).stations else s.stations }

/-- The first start bit of a call (R16, R89). -/
theorem State.beginCall_eq {s : State} {c : Context} {bits : CallBits} (hc : s.context = some c)
    (hbits : bits = c.callBits.getD (c.decideCallBits (s.station c.station))) : s.beginCall = s.callBegun c bits := by
  subst hbits
  simp only [State.beginCall, hc]
  split <;> rename_i h
  · rw [State.setStation_eq]
    simp only [State.callBegun, if_pos h]
    rfl
  · simp only [State.callBegun, if_neg h]
    rfl

/-- The expiry of GAP's timer begins CALLING (R88). -/
theorem exec_telegramGapExpiry {s : State} (hs : s.resetHeld = false) (hgap : s.phase = .gap)
    (hquiet : s.lineQuiet = true) :
    exec .telegramGapExpiry s = .next s.enterCalling := by
  rw [exec_of_live (i := .telegramGapExpiry) rfl hs, State.telegramGapEnd, if_pos ⟨hgap, hquiet⟩]

/-- The part as CALLING begins: DE asserted, the DE lead loaded (R88, R89). -/
def State.leadBegun (s : State) : State :=
  { s with phase := .calling, de := true, tx := .lead, timer := ⟨.deLead, s.lineConfig.deLead⟩ }

/-- A call that begins out of its lead has asserted DE in CALLING. -/
theorem State.leadBegun_callBegun (s : State) (c : Context) (bits : CallBits) :
    s.leadBegun.callBegun c bits = { s.callBegun c bits with phase := .calling, de := true } := by
  have hstations : ∀ (a : Nat) (e : Station), (s.leadBegun.setStation a e).stations =
      (s.setStation a e).stations := by
    intro a e
    cases a <;> rfl
  simp only [State.callBegun, hstations]
  rfl

/-- With a DE lead, CALLING begins with it (R88, R89). -/
theorem State.enterCalling_of_lead {s : State} (h : s.lineConfig.deLead ≠ 0) : s.enterCalling = s.leadBegun := by
  rw [State.enterCalling, if_neg h]
  rfl

/-- With a DE lead of 0 the first start bit goes out as CALLING begins (R88, R89). -/
theorem State.enterCalling_of_no_lead {s : State} {c : Context} {bits : CallBits} (hc : s.context = some c)
    (hbits : bits = c.callBits.getD (c.decideCallBits (s.station c.station))) (h : s.lineConfig.deLead = 0) :
    s.enterCalling = s.leadBegun.callBegun c bits := by
  rw [State.enterCalling, if_pos h]
  exact State.beginCall_eq (s := s.leadBegun) hc hbits

/-- The end of the DE lead brings the first start bit (R89). -/
theorem exec_deLeadExpiry {s : State} {c : Context} {bits : CallBits} (hs : s.resetHeld = false)
    (hc : s.context = some c)
    (hbits : bits = c.callBits.getD (c.decideCallBits (s.station c.station))) (htx : s.tx = .lead) :
    exec .deLeadExpiry s = .next (s.callBegun c bits) := by
  rw [exec_of_live (i := .deLeadExpiry) rfl hs, State.deLeadEnd, if_pos htx, State.beginCall_eq hc hbits]

/-- A complete call to a station releases DE, is counted, and awaits the answer (R89). -/
theorem State.completeCall_of_station {s : State} {c : Context} (hc : s.context = some c) (h : c.station ≠ 0) :
    s.completeCall =
      { s with
        de := false
        tx := .quiet
        phase := .waiting
        timer := ⟨.answer, s.lineConfig.answerTimeout * s.characterBits⟩
        context := some { c with attempts := c.attempts + 1 } } := by
  simp only [State.completeCall, hc, if_neg h]
  rfl

/-- A complete broadcast releases DE, is counted, and settles (R89). -/
theorem State.completeCall_of_broadcast {s : State} {c : Context} (hc : s.context = some c) (h : c.station = 0) :
    s.completeCall =
      { s with
        de := false
        tx := .quiet
        phase := .settling
        timer := ⟨.settle, s.lineConfig.telegramGap * s.characterBits⟩
        context := some { c with attempts := c.attempts + 1 } } := by
  simp only [State.completeCall, hc, if_pos h]
  rfl

/-- The end of the DE trail completes the call (R89). -/
theorem exec_deTrailExpiry {s : State} (hs : s.resetHeld = false) (htx : s.tx = .trail) :
    exec .deTrailExpiry s = .next s.completeCall := by
  rw [exec_of_live (i := .deTrailExpiry) rfl hs, State.deTrailEnd, if_pos htx]

/-- The stop bit of an echoed character ends (R89). -/
theorem exec_characterSent {s : State} {i : Nat} {d : Byte} {m : Bool} (hs : s.resetHeld = false)
    (htx : s.tx = .sending i d m true) : exec .characterSent s = .next (s.sendNext i) := by
  rw [exec_of_live (i := .characterSent) rfl hs, htx]

/-- The part as the DE trail begins (R89). -/
def State.trailBegun (s : State) : State :=
  { s with tx := .trail, timer := ⟨.deTrail, s.lineConfig.deTrail⟩ }

/-- A character that is not the last is followed by the next, back to back (R89). -/
theorem State.sendNext_of_more {s : State} {c : Context} {bits : CallBits} {i : Nat} {next : Byte}
    (hc : s.context = some c) (hbits : bits = c.callBits.getD (c.decideCallBits (s.station c.station)))
    (hnext : (s.callTelegram c bits)[i + 1]? = some next) :
    s.sendNext i = { s with tx := .sending (i + 1) next false false } := by
  subst hbits
  obtain ⟨hlt, -⟩ := List.getElem?_eq_some_iff.1 hnext
  simp only [State.sendNext, hc, if_pos hlt, List.getD_eq_getElem?_getD, hnext]
  rfl

/-- After Check B the trail begins; one of 0 completes the call at once (R89, log entry 9). -/
theorem State.sendNext_of_last {s : State} {c : Context} {bits : CallBits} {i : Nat} (hc : s.context = some c)
    (hbits : bits = c.callBits.getD (c.decideCallBits (s.station c.station)))
    (hlast : (s.callTelegram c bits).length ≤ i + 1) :
    s.sendNext i = if s.lineConfig.deTrail = 0 then s.trailBegun.completeCall else s.trailBegun := by
  subst hbits
  simp only [State.sendNext, hc, if_neg (Nat.not_lt.2 hlast), State.trailBegun]
  rfl

/-- The parity bit of a frame makes the 1 bits even or odd in number, and is absent under NONE (R2). -/
theorem Parity.bit_toList (q : Parity) (d : Byte) (m : Bool) :
    (q = .none → (q.bit d m).toList = []) ∧
    (q = .even → (q.bit d m).toList.length = 1 ∧
      (dataBits d ++ [m] ++ (q.bit d m).toList).count true % 2 = 0) ∧
    (q = .odd → (q.bit d m).toList.length = 1 ∧
      (dataBits d ++ [m] ++ (q.bit d m).toList).count true % 2 = 1) := by
  refine ⟨?_, ?_, ?_⟩
  · rintro rfl
    rfl
  · rintro rfl
    have h := (Parity.even_passes_iff d m (oddOnes d m)).1 (by simp [Parity.passes, Parity.bit])
    exact ⟨rfl, by simpa [Parity.bit] using h⟩
  · rintro rfl
    have h := (Parity.odd_passes_iff d m (!oddOnes d m)).1 (by simp [Parity.passes, Parity.bit])
    exact ⟨rfl, by simpa [Parity.bit] using h⟩

/-- Settles O36: one rule per timer and per place of a sent character in its telegram. -/
theorem callTimersRule : Obligations.CallTimersRule := by
  rintro s c e bits hs hc rfl hbits
  refine ⟨fun hgap hquiet hlead => ?_, fun hgap hquiet hlead => ?_,
    fun htx => exec_deLeadExpiry hs hc hbits htx, ?_, ?_, ?_,
    fun htx h0 => ?_, fun htx h0 => ?_⟩
  · rw [exec_telegramGapExpiry hs hgap hquiet, State.enterCalling_of_lead hlead, State.leadBegun]
  · rw [exec_telegramGapExpiry hs hgap hquiet, State.enterCalling_of_no_lead hc hbits hlead,
      State.leadBegun_callBegun]
    rfl
  · rintro i d m control a b payload covered characters htx ⟨hkind, htoggle, hack, hsync, h6, h7⟩
      hpayload hcovered ha hb hchars
    have hcontrol : callControl c.kind bits = control :=
      callControl_of_fields (hkind.trans (by cases c.kind <;> rfl)) htoggle hack hsync h6 h7
    have hpay : s.payload c.outBuffer c.outLength = payload := by
      rw [hpayload]
      cases c.outBuffer <;> rfl
    have htelegram : s.callTelegram c bits = characters := by
      rw [State.callTelegram, hcontrol, hpay, telegram_of_checks hcovered ha hb, hchars]
      rfl
    rw [exec_characterSent hs htx]
    refine ⟨fun next hnext => ?_, fun hlast htrail => ?_, fun hlast htrail h0 => ?_, fun hlast htrail h0 => ?_⟩
    · rw [State.sendNext_of_more hc hbits (by rwa [htelegram])]
    all_goals rw [State.sendNext_of_last hc hbits (by rwa [htelegram])]
    · rw [if_neg htrail, State.trailBegun]
    · rw [if_pos htrail, State.completeCall_of_station (s := s.trailBegun) hc h0]
      rfl
    · rw [if_pos htrail, State.completeCall_of_broadcast (s := s.trailBegun) hc h0]
      rfl
  · rintro i d m echoed nine htx rfl
    obtain ⟨hnone, heven, hodd⟩ := s.lineConfig.parity.bit_toList d m
    refine ⟨(s.lineConfig.parity.bit d m).toList, ?_, hnone, heven, hodd⟩
    simp only [State.txdFrame, htx, frameBits, dataBits, List.append_assoc]
  · rintro (htx | htx | htx) <;> rw [State.txdFrame, htx]
  · rw [exec_deTrailExpiry hs htx, State.completeCall_of_station hc h0]
  · rw [exec_deTrailExpiry hs htx, State.completeCall_of_broadcast hc h0]

/-! ## A whole call (R89, R90) -/

/-- The arrivals of the characters of a call from place `i` on, read back as sent. -/
def echoArrivalsFrom (p : Parity) (i : Nat) (characters : List Byte) : List Instr :=
  (characters.zipIdx i).flatMap fun (d, j) =>
    [.confirmedStartBit, .characterDelivered d (j == 0) (p.sent d (j == 0)) true, .characterSent]

/-- The first character's arrivals, then those of the others. -/
theorem echoArrivalsFrom_cons (p : Parity) (i : Nat) (d : Byte) (rest : List Byte) :
    echoArrivalsFrom p i (d :: rest) =
      [.confirmedStartBit, .characterDelivered d (i == 0) (p.sent d (i == 0)) true, .characterSent] ++
        echoArrivalsFrom p (i + 1) rest := by
  simp [echoArrivalsFrom, List.zipIdx_cons]

/-- The echo of one character, and the end of its stop bit (R89, R90). -/
theorem execAll_echo {s : State} {i : Nat} {d : Byte} {m : Bool} (hs : s.resetHeld = false) (hde : s.de = true)
    (hphase : s.phase ≠ .waiting) (hrx : s.receiver = Receiver.ready) (htx : s.tx = .sending i d m false) :
    execAll [.confirmedStartBit, .characterDelivered d m (s.lineConfig.parity.sent d m) true, .characterSent] s =
      .next (State.sendNext { s with tx := .sending i d m true } i) := by
  have hstart : exec .confirmedStartBit s = .next s.insideCharacter := by
    rw [exec_of_live (i := .confirmedStartBit) rfl hs, State.startCharacter_of_not_waiting (by rw [hrx]; rfl) hphase]
  have hready : s.insideCharacter.receiver.canDeliver = true := by
    rw [State.insideCharacter, hrx]
    rfl
  have hmatch : (s.insideCharacter.judgeSamples d m (s.lineConfig.parity.sent d m) true).matchesSent d m = true :=
    (State.judgeSamples_matchesSent_iff ..).2 ⟨rfl, Parity.passes_sent _ _ _, rfl, rfl⟩
  have hecho : exec (.characterDelivered d m (s.lineConfig.parity.sent d m) true) s.insideCharacter =
      .next { s with tx := .sending i d m true } := by
    rw [exec_characterDelivered_of_de (s := s.insideCharacter) _ _ _ _ hs hde hready,
      State.insideCharacter_sampled hrx,
      State.echoCheck_of_match htx hmatch]
  have hsent : exec .characterSent { s with tx := .sending i d m true } =
      .next (State.sendNext { s with tx := .sending i d m true } i) := exec_characterSent hs rfl
  rw [execAll_cons hstart, execAll_cons hecho, execAll_cons hsent]
  rfl

/-- The characters of a call from place `i` on go out, each read back as sent, and the trail begins (R89, R90). -/
theorem execAll_echoes {s : State} {c : Context} {bits : CallBits} {rest : List Byte} {i : Nat} {d : Byte}
    (hs : s.resetHeld = false) (hde : s.de = true) (hphase : s.phase ≠ .waiting) (hrx : s.receiver = Receiver.ready)
    (hc : s.context = some c) (hbits : c.callBits = some bits) (htx : s.tx = .sending i d (i == 0) false)
    (hrest : (s.callTelegram c bits).drop i = d :: rest) :
    execAll (echoArrivalsFrom s.lineConfig.parity i (d :: rest)) s =
      .next (if s.lineConfig.deTrail = 0 then s.trailBegun.completeCall else s.trailBegun) := by
  have hdecided : bits = c.callBits.getD (c.decideCallBits (s.station c.station)) := by
    rw [hbits]
    rfl
  induction rest generalizing s i d with
  | nil =>
    have hlast : (s.callTelegram c bits).length ≤ i + 1 := by
      have hlen := congrArg List.length hrest
      rw [List.length_drop, List.length_singleton] at hlen
      omega
    rw [echoArrivalsFrom_cons, execAll_append (execAll_echo hs hde hphase hrx htx),
      State.sendNext_of_last (s := { s with tx := .sending i d (i == 0) true }) hc hdecided hlast]
    rfl
  | cons next rest ih =>
    have hdrop : (s.callTelegram c bits).drop (i + 1) = next :: rest := by
      rw [← List.tail_drop, hrest, List.tail_cons]
    have hnext : (s.callTelegram c bits)[i + 1]? = some next := by rw [← List.head?_drop, hdrop, List.head?_cons]
    rw [echoArrivalsFrom_cons, execAll_append (execAll_echo hs hde hphase hrx htx),
      State.sendNext_of_more (s := { s with tx := .sending i d (i == 0) true }) hc hdecided hnext]
    exact ih (s := { s with tx := .sending (i + 1) next false false }) hs hde hphase hrx hc rfl hdrop hdecided

/-- GAP's expiry, and that of the lead if there is one, send the first start bit (R88, R89). -/
theorem execAll_callBegun {s : State} {c : Context} {bits : CallBits} (hs : s.resetHeld = false)
    (hgap : s.phase = .gap) (hquiet : s.lineQuiet = true) (hc : s.context = some c)
    (hbits : bits = c.callBits.getD (c.decideCallBits (s.station c.station))) :
    execAll ([Instr.telegramGapExpiry] ++ (if s.lineConfig.deLead = 0 then [] else [.deLeadExpiry])) s =
      .next (s.leadBegun.callBegun c bits) := by
  rw [List.singleton_append, execAll_cons (exec_telegramGapExpiry hs hgap hquiet)]
  by_cases hlead : s.lineConfig.deLead = 0
  · rw [if_pos hlead, State.enterCalling_of_no_lead hc hbits hlead]
    rfl
  · rw [if_neg hlead, State.enterCalling_of_lead hlead,
      execAll_cons (exec_deLeadExpiry (s := s.leadBegun) hs hc hbits rfl)]
    rfl

/-- The characters of a call, each read back as sent, and the trail, or none, complete it (R89, R90, log entry 9). -/
theorem execAll_callCompleted {s : State} {c : Context} {bits : CallBits} {d : Byte} {rest : List Byte}
    (hs : s.resetHeld = false) (hde : s.de = true) (hphase : s.phase ≠ .waiting) (hrx : s.receiver = Receiver.ready)
    (hc : s.context = some c) (hbits : c.callBits = some bits) (htx : s.tx = .sending 0 d true false)
    (hcall : s.callTelegram c bits = d :: rest) :
    execAll (echoArrivals s.lineConfig.parity (d :: rest) ++
      (if s.lineConfig.deTrail = 0 then [] else [.deTrailExpiry])) s = .next s.trailBegun.completeCall := by
  have hechoes : execAll (echoArrivals s.lineConfig.parity (d :: rest)) s =
      .next (if s.lineConfig.deTrail = 0 then s.trailBegun.completeCall else s.trailBegun) :=
    execAll_echoes hs hde hphase hrx hc hbits htx hcall
  rw [execAll_append hechoes]
  split
  · rfl
  · rw [execAll_cons (exec_deTrailExpiry (s := s.trailBegun) hs rfl)]
    rfl

/-- Settles O37: GAP's expiry and the lead, the characters by induction over the telegram, and the trail. -/
theorem callIsSentWhole : Obligations.CallIsSentWhole := by
  rintro s c e bits call hs hgap hrx hc hlow hhigh rfl hbits rfl
  have h0 : c.station ≠ 0 := by omega
  have haddress : BitVec.ofNat 8 c.station = callAddress c.station := by rw [callAddress, Nat.mod_eq_of_lt (by omega)]
  have hquiet : s.lineQuiet = true := by rw [State.lineQuiet, hrx]; rfl
  have hdecided : bits = c.callBits.getD (c.decideCallBits (s.station c.station)) := by
    rw [hbits, Context.decideCallBits, if_neg h0]
  have hcompleted := execAll_callCompleted (s := s.leadBegun.callBegun c bits) (c := { c with callBits := some bits })
    hs rfl nofun hrx rfl rfl rfl rfl
  rw [List.append_assoc, execAll_append (execAll_callBegun hs hgap hquiet hc hdecided), haddress]
  refine hcompleted.trans ?_
  rw [State.completeCall_of_station (c := { c with callBits := some bits }) rfl h0, State.leadBegun_callBegun]
  rfl

end Sys2Proof.Machine
end

section
/-! SUPPORT. What arrives on the station line: the beginning of an answer, the end of a held-back space, and the
tests of an answer's characters. -/

namespace Sys2Proof.Machine

/-! ## The beginning of an answer (R93, R94) -/

/-- RECEIVING begins with its timer stopped and the accumulators afresh; message memory may be cleared (R94). -/
theorem State.beginReception_eq (s : State) :
    s.beginReception =
      { s with
        phase := .receiving
        timer := LineTimer.off
        reception := Reception.fresh
        memory := s.beginReception.memory } := by
  unfold State.beginReception
  split <;> rfl

/-- In a later attempt the answer buffer is cleared (R94, log entry 10). -/
theorem State.beginReception_memory_of_later {s : State} {c : Context} {b : Nat} (hc : s.context = some c)
    (hb : c.answerBuffer = some b) (hlater : c.lastDetail ≠ none) :
    s.beginReception.memory = (s.clearBuffer b).memory := by
  obtain ⟨x, hx⟩ := Option.ne_none_iff_exists'.1 hlater
  cases c
  simp only at hb hx
  subst hb hx
  simp only [State.beginReception, hc]
  rfl

/-- In the first attempt, or without an answer buffer, message memory stays as it is (R94). -/
theorem State.beginReception_memory_of_first {s : State}
    (h : ∀ c ∈ s.context, c.answerBuffer = none ∨ c.lastDetail = none) : s.beginReception.memory = s.memory := by
  unfold State.beginReception
  split
  · rename_i hc
    simpa using h _ hc
  · rfl

/-- A start bit in WAITING begins the answer (R93). -/
theorem State.startCharacter_of_waiting {s : State} (hstart : s.receiver.canStart = true) (hw : s.phase = .waiting) :
    s.startCharacter = s.insideCharacter.beginReception := by
  simp [State.startCharacter, hstart, hw, State.insideCharacter]

/-! ## Characters by mode and phase (R4) -/

/-- While STOPPED a character is only counted (R108). -/
theorem State.takeCharacter_of_stopped {s : State} (c : Delivered) (hde : s.de = false) (hmode : s.mode = .stopped) :
    s.takeCharacter c = s.stoppedCharacter c := by
  simp [State.takeCharacter, hde, hmode]

/-- In IDLE, GAP and HOLDOFF a character was not asked for (R104). -/
theorem State.takeCharacter_of_unasked {s : State} (c : Delivered) (hde : s.de = false) (hmode : s.mode ≠ .stopped)
    (hphase : s.phase = .idle ∨ s.phase = .gap ∨ s.phase = .holdoff) : s.takeCharacter c = s.unaskedCharacter c := by
  rcases hphase with h | h | h <;> simp [State.takeCharacter, hde, hmode, h]

/-- In RECEIVING a character belongs to the answer (R94). -/
theorem State.takeCharacter_of_receiving {s : State} (c : Delivered) (hde : s.de = false) (hmode : s.mode ≠ .stopped)
    (hphase : s.phase = .receiving) : s.takeCharacter c = s.answerCharacter c := by
  simp [State.takeCharacter, hde, hmode, hphase]

/-- In SETTLING a character is late (R98). -/
theorem State.takeCharacter_of_settling {s : State} (c : Delivered) (hde : s.de = false) (hmode : s.mode ≠ .stopped)
    (hphase : s.phase = .settling) : s.takeCharacter c = s.lateCharacter := by
  simp [State.takeCharacter, hde, hmode, hphase]

/-- A character with a framing failure is no sign of another master (R104). -/
theorem Delivered.isConflict_of_framing {c : Delivered} (h : c.framingOk = false) : c.isConflict = false := by
  simp [Delivered.isConflict, Delivered.clean, h]

/-- In GAP the quiet timer is the telegram-gap timer (R87). -/
theorem State.reloadQuiet_of_gap {s : State} (h : s.phase = .gap) :
    s.reloadQuiet = { s with timer := ⟨.telegramGap, s.lineConfig.telegramGap * s.characterBits⟩ } := by
  have hgap : s.reloadQuiet = s.enterGap := by rw [State.reloadQuiet, h]
  exact hgap.trans (State.enterGap_of_gap h)

/-- In HOLDOFF the quiet timer is the holdoff timer (R87). -/
theorem State.reloadQuiet_of_holdoff {s : State} (h : s.phase = .holdoff) :
    s.reloadQuiet = { s with timer := ⟨.holdoff, s.lineConfig.holdoff * s.characterBits⟩ } := by
  have hholdoff : s.reloadQuiet = s.enterHoldoff := by rw [State.reloadQuiet, h]
  exact hholdoff.trans (State.enterHoldoff_of_holdoff h)

/-- IDLE has no quiet timer (R87). -/
theorem State.reloadQuiet_of_idle {s : State} (h : s.phase = .idle) : s.reloadQuiet = s := by
  rw [State.reloadQuiet, h]

/-- While STOPPED a character with a framing failure is a stray (R108). -/
theorem State.takeCharacter_of_framing_stopped {s : State} {c : Delivered} (hc : c.framingOk = false)
    (hde : s.de = false) (hmode : s.mode = .stopped) : s.takeCharacter c = s.countStray := by
  simp [State.takeCharacter_of_stopped c hde hmode, State.stoppedCharacter, Delivered.isConflict_of_framing hc]

/-- In IDLE, GAP and HOLDOFF a character with a framing failure is a stray that loads the quiet timer again (R87,
R104). -/
theorem State.takeCharacter_of_framing_unasked {s : State} {c : Delivered} (hc : c.framingOk = false)
    (hde : s.de = false) (hmode : s.mode ≠ .stopped)
    (hphase : s.phase = .idle ∨ s.phase = .gap ∨ s.phase = .holdoff) :
    s.takeCharacter c = s.countStray.reloadQuiet := by
  simp [State.takeCharacter_of_unasked c hde hmode hphase, State.unaskedCharacter, Delivered.isConflict_of_framing hc]

/-- A character in SETTLING after a broadcast is a stray that loads the settle timer again (R98, R108). -/
theorem State.lateCharacter_of_broadcast {s : State} {c : Context} (hphase : s.phase = .settling)
    (hc : s.context = some c) (h0 : c.station = 0) :
    s.lateCharacter = { s.countStray with timer := ⟨.settle, s.lineConfig.telegramGap * s.characterBits⟩ } := by
  have hlate : s.lateCharacter = s.countStray.enterSettling := by simp only [State.lateCharacter, hc, if_pos h0]
  rw [hlate, State.enterSettling_of_settling (s := s.countStray) hphase]
  rfl

/-- A late character is counted at its station and loads the settle timer again (R38, R98). -/
theorem State.lateCharacter_of_station {s : State} {c : Context} (hphase : s.phase = .settling)
    (hc : s.context = some c) (h0 : c.station ≠ 0) :
    s.lateCharacter =
      { s with
        stations := (s.setStation c.station { s.station c.station with
          lateCharacters := satInc Config.counterCap (s.station c.station).lateCharacters }).stations
        timer := ⟨.settle, s.lineConfig.telegramGap * s.characterBits⟩ } := by
  have hlate : s.lateCharacter = (s.setStation c.station { s.station c.station with
      lateCharacters := satInc Config.counterCap (s.station c.station).lateCharacters }).enterSettling := by
    simp only [State.lateCharacter, hc, if_neg h0]
  rw [hlate, State.enterSettling_of_settling (by simpa using hphase), State.setStation_eq]
  rfl

/-! ## The characters of an answer (R94, R97) -/

/-- A failed attempt interprets no further character (R97). -/
theorem State.answerCharacter_of_failed {s : State} {c : Context} (d : Delivered) (hc : s.context = some c)
    (hv : c.verdict.isSome = true) : s.answerCharacter d = s.awaitCharacter := by
  simp [State.answerCharacter, hc, hv]

/-- The detail of the first test that a character of an answer fails: the character's own tests, then its field's
(R94). -/
def Reception.failure (r : Reception) (c : Context) (d : Delivered) : Option Detail :=
  (d.test (r.taken == 0)).or (r.test c d.data)

/-- A character that fails a test makes the attempt BAD_ANSWER (R94). -/
theorem State.answerCharacter_of_failure {s : State} {c : Context} {d : Delivered} {x : Detail}
    (hc : s.context = some c) (hv : c.verdict = none) (hx : s.reception.failure c d = some x) :
    s.answerCharacter d = State.awaitCharacter { s with context := some (c.fail x) } := by
  unfold Reception.failure at hx
  simp only [State.answerCharacter, hc, hv]
  cases ht : d.test (s.reception.taken == 0) <;> simp_all

/-- A character that passes its tests, short of Check B, is kept, a payload byte in the answer buffer (R94). -/
theorem State.answerCharacter_of_kept {s : State} {c : Context} {d : Delivered} (hc : s.context = some c)
    (hv : c.verdict = none) (hx : s.reception.failure c d = none)
    (hmore : s.reception.taken < 3 ∨ s.reception.taken < s.reception.length + 4) :
    s.answerCharacter d =
      State.awaitCharacter
        { (if s.reception.taken < s.reception.length + 3 then s.storePayload c d.data else s) with
          reception := s.reception.keep d.data } := by
  unfold Reception.failure at hx
  simp only [State.answerCharacter, hc, hv]
  cases ht : d.test (s.reception.taken == 0) <;> simp_all

/-- Check B brings the closing tests and SETTLING (R95). -/
theorem State.answerCharacter_of_checkB {s : State} {c : Context} {d : Delivered} (hc : s.context = some c)
    (hv : c.verdict = none) (hx : s.reception.failure c d = none) (h3 : 3 ≤ s.reception.taken)
    (hlast : s.reception.length + 4 ≤ s.reception.taken) :
    s.answerCharacter d =
      State.enterSettling { s with context := some (c.judge (s.reception.close c.kind d.data)) } := by
  have hmore : ¬ (s.reception.taken < 3 ∨ s.reception.taken < s.reception.length + 4) := by omega
  unfold Reception.failure at hx
  simp only [State.answerCharacter, hc, hv]
  cases ht : d.test (s.reception.taken == 0) <;> simp_all

/-! ## The end of a held-back space (R106) -/

/-- The part with no space character held back any more. -/
def State.spaceReleased (s : State) : State :=
  { s with receiver := { s.receiver with heldSpace := false } }

/-- The end of a held-back space is handled as a character with a framing failure (R106). -/
theorem exec_spaceCharacter {s : State} (hs : s.resetHeld = false) (hheld : s.receiver.heldSpace = true)
    (hbreak : s.receiver.lineInBreak = false) :
    ∃ c : Delivered, c.framingOk = false ∧ exec .spaceCharacter s = .next (s.spaceReleased.takeCharacter c) := by
  refine ⟨⟨0, false, s.lineConfig.parity.passes 0 false false, false⟩, rfl, ?_⟩
  rw [exec_of_live (i := .spaceCharacter) rfl hs, State.releaseSpace, if_pos (by simp [hheld, hbreak])]
  rfl

/-- Settles O40: start bits by the phase, a held-back space by mode and phase, and the return to mark. -/
theorem startBitsRule : Obligations.StartBitsRule := by
  rintro s inside hs rfl
  refine ⟨fun hstart hw => ?_, fun hstart hw => ?_, fun hheld hbreak hde => ?_, fun hawait hbreak => ?_⟩
  · rw [exec_of_live (i := .confirmedStartBit) rfl hs, State.startCharacter_of_not_waiting hstart hw]
    rfl
  · refine ⟨s.insideCharacter.beginReception, ?_, State.beginReception_eq _, fun c b hc hb hlater => ?_,
      State.beginReception_memory_of_first (s := s.insideCharacter)⟩
    · rw [exec_of_live (i := .confirmedStartBit) rfl hs, State.startCharacter_of_waiting hstart hw]
    · unfold State.bufferByte
      rw [State.beginReception_memory_of_later (s := s.insideCharacter) hc hb (Option.isSome_iff_ne_none.1 hlater)]
      exact ⟨fun i hi => State.bufferByte_clearBuffer_same (s := s) hi,
        fun a ha => Memory.read_clear_outside (by unfold bufferAddress; omega)⟩
  · obtain ⟨space, hframing, hexec⟩ := exec_spaceCharacter hs hheld hbreak
    rw [hexec]
    refine ⟨fun h => ?_, fun hmode hgap => ?_, fun hmode hholdoff => ?_, fun c hmode hc => ⟨fun hphase hv => ?_,
      fun hphase hv => ?_, fun hphase h0 => ?_, fun hphase h0 => ?_⟩⟩
    · by_cases hmode : s.mode = .stopped
      · rw [State.takeCharacter_of_framing_stopped (s := s.spaceReleased) hframing hde hmode]
        rfl
      · have hidle : s.phase = .idle := h.resolve_left hmode
        rw [State.takeCharacter_of_framing_unasked (s := s.spaceReleased) hframing hde hmode (.inl hidle),
          State.reloadQuiet_of_idle (s := s.spaceReleased.countStray) hidle]
        rfl
    · rw [State.takeCharacter_of_framing_unasked (s := s.spaceReleased) hframing hde hmode (.inr (.inl hgap)),
        State.reloadQuiet_of_gap (s := s.spaceReleased.countStray) hgap]
      rfl
    · rw [State.takeCharacter_of_framing_unasked (s := s.spaceReleased) hframing hde hmode (.inr (.inr hholdoff)),
        State.reloadQuiet_of_holdoff (s := s.spaceReleased.countStray) hholdoff]
      rfl
    · rw [State.takeCharacter_of_receiving (s := s.spaceReleased) _ hde hmode hphase,
        State.answerCharacter_of_failure (s := s.spaceReleased) (x := .framing) hc hv
          (by simp [Reception.failure, Delivered.test, hframing])]
      rfl
    · rw [State.takeCharacter_of_receiving (s := s.spaceReleased) _ hde hmode hphase,
        State.answerCharacter_of_failed (s := s.spaceReleased) _ hc hv]
      rfl
    · rw [State.takeCharacter_of_settling (s := s.spaceReleased) _ hde hmode hphase,
        State.lateCharacter_of_broadcast (s := s.spaceReleased) hphase hc h0]
      rfl
    · rw [State.takeCharacter_of_settling (s := s.spaceReleased) _ hde hmode hphase,
        State.lateCharacter_of_station (s := s.spaceReleased) hphase hc h0, State.setStation_eq s]
      cases c.station <;> rfl
  · rw [exec_of_live (i := .rxdReturnToMark) rfl hs, State.returnToMark, if_pos (by simp [hawait, hbreak])]

/-! ## The tests of an answer's character (R6, R8, R94) -/

/-- The direction flag and the two middle bits of an address character, as a number (R6). -/
theorem answerDirection_iff (d : Byte) : answerDirection d = true ↔ d.toNat / 32 = 4 := by
  rw [toNat_div_32, answerDirection]
  cases d.getLsbD 5 <;> cases d.getLsbD 6 <;> cases d.getLsbD 7 <;> decide

/-- The character tests in their order: framing, parity, mark bit (R94). -/
theorem State.judgeSamples_test (s : State) (d : Byte) (m p st first : Bool) :
    (s.judgeSamples d m p st).test first =
      if st = false then some .framing
      else if s.rxParity.passes d m p = false then some .parity
      else if m ≠ first then some .markMisplaced
      else none := by
  simp [State.judgeSamples, Delivered.test]

/-- The field test of an address character: direction, then station (R6, R94). -/
theorem Reception.test_of_address {r : Reception} (c : Context) (d : Byte) (h : r.taken = 0) :
    r.test c d =
      if d.toNat / 32 ≠ 4 then some .wrongDirection
      else if d.toNat % 32 ≠ c.station then some .wrongStation
      else none := by
  by_cases hd : d.toNat / 32 = 4
  · by_cases hstation : d.toNat % 32 = c.station <;>
      simp [Reception.test, h, addressStation, hd, (answerDirection_iff d).2 hd, hstation]
  · simp [Reception.test, h, hd, Bool.eq_false_iff.2 (mt (answerDirection_iff d).1 hd)]

/-- The field test of a length character (R8, R94). -/
theorem Reception.test_of_length {r : Reception} (c : Context) (d : Byte) (h : r.taken = 2) :
    r.test c d = if 32 < d.toNat then some .lengthRange else none := by
  simp only [Reception.test, h]

/-- No other character has a field test (R94). -/
theorem Reception.test_of_other {r : Reception} (c : Context) (d : Byte) (h0 : r.taken ≠ 0) (h2 : r.taken ≠ 2) :
    r.test c d = none := by
  unfold Reception.test
  split
  · exact absurd ‹_› h0
  · exact absurd ‹_› h2
  · rfl

/-- A character of an answer, no space character, delivered in RECEIVING (R94). -/
theorem exec_characterDelivered_of_receiving {s : State} {d : Byte} {m p st : Bool} (hs : s.resetHeld = false)
    (hde : s.de = false) (hmode : s.mode ≠ .stopped) (hphase : s.phase = .receiving)
    (hcan : s.receiver.canDeliver = true) (hspace : s.rxParity.isSpaceCharacter d m p st = false) :
    exec (.characterDelivered d m p st) s =
      .next ((s.sampled st).answerCharacter (s.judgeSamples d m p st)) := by
  have hexec : exec (.characterDelivered d m p st) s = .next (s.live (·.deliver d m p st)) := rfl
  rw [exec_of_live hexec hs, State.deliver_of_taken hcan (.inl hspace),
    State.takeCharacter_of_receiving (s := s.sampled st) _ hde hmode hphase]

/-- Settles O42: a failed attempt only loads its timer; otherwise the first failed test is found in the order of
R94. -/
theorem answerCharacterTests : Obligations.AnswerCharacterTests := by
  rintro s rx c d m p st first hs hde hmode hphase hc hcan hspace rfl rfl
  rw [exec_characterDelivered_of_receiving hs hde hmode hphase hcan hspace]
  refine ⟨fun hv => ?_, fun x hv hx => ?_⟩
  · rw [State.answerCharacter_of_failed (s := s.sampled st) _ hc hv]
    rfl
  · have hfailure : s.reception.failure c (s.judgeSamples d m p st) = some x := by
      rw [Reception.failure, State.judgeSamples_test]
      rcases hx with ⟨rfl, hst⟩ | ⟨rfl, hst, hp⟩ | ⟨rfl, hst, hp, hm⟩ | ⟨hst, hp, hm, hfield⟩
      · simp [hst]
      · simp [hst, hp]
      · simp [hst, hp, hm]
      · have htest : s.reception.test c d = some x := by
          rcases hfield with ⟨rfl, hfirst, hd⟩ | ⟨rfl, hfirst, hd, hstation⟩ | ⟨rfl, h2, hd⟩
          · rw [Reception.test_of_address c d (by simpa using hfirst), if_pos hd]
          · rw [Reception.test_of_address c d (by simpa using hfirst), if_neg (not_not.2 hd), if_pos hstation]
          · rw [Reception.test_of_length c d h2, if_pos hd]
        rw [if_neg (by simp [hst]), if_neg (by simp [hp]), if_neg (not_not.2 hm)]
        exact htest
    rw [State.answerCharacter_of_failure (s := s.sampled st) hc hv hfailure]
    rfl

end Sys2Proof.Machine
end

section
/-! SUPPORT. A whole answer: its characters one by one, the payload in the answer buffer, and the closing tests. -/

namespace Sys2Proof.Machine

/-! ## The answer buffer (R8, R94) -/

/-- Store one payload byte at its place, if there is a buffer for it. -/
def State.storeByte (s : State) (buffer : Option Nat) (i : Nat) (d : Byte) : State :=
  match buffer with
  | none => s
  | some b => s.writeBuffer b i d

/-- Store payload bytes from place `i` on. -/
def State.storeBytes (s : State) (buffer : Option Nat) (i : Nat) (bytes : List Byte) : State :=
  match bytes with
  | [] => s
  | d :: rest => (s.storeByte buffer i d).storeBytes buffer (i + 1) rest

/-- A stored byte changes message memory and nothing else. -/
theorem State.storeByte_eq (s : State) (buffer : Option Nat) (i : Nat) (d : Byte) :
    s.storeByte buffer i d = { s with memory := (s.storeByte buffer i d).memory } := by
  cases buffer with
  | none => rfl
  | some b =>
    simp only [State.storeByte, State.writeBuffer]
    split <;> rfl

/-- Stored bytes change message memory and nothing else. -/
theorem State.storeBytes_eq (s : State) (buffer : Option Nat) (i : Nat) (bytes : List Byte) :
    s.storeBytes buffer i bytes = { s with memory := (s.storeBytes buffer i bytes).memory } := by
  induction bytes generalizing s i with
  | nil => rfl
  | cons d rest ih =>
    rw [State.storeBytes, ih, State.storeByte_eq]

/-- A byte of the buffer after a store into it (R8). -/
theorem State.bufferByte_storeBytes {s : State} {b i j : Nat} {bytes : List Byte} (hwf : s.memory.wf = true)
    (hb : b < 64) (hlen : i + bytes.length ≤ 32) (hj : j < 32) :
    (s.storeBytes (some b) i bytes).bufferByte b j =
      if i ≤ j then bytes.getD (j - i) (s.bufferByte b j) else s.bufferByte b j := by
  induction bytes generalizing s i with
  | nil => simp [State.storeBytes]
  | cons d rest ih =>
    rw [List.length_cons] at hlen
    rw [State.storeBytes, State.storeByte, ih (State.wf_writeBuffer b i d hwf) (by omega)]
    rcases Nat.lt_trichotomy j i with hlt | rfl | hgt
    · rw [if_neg (by omega), if_neg (by omega), State.bufferByte_writeBuffer_other d (by omega) hj (.inr (by omega))]
    · rw [if_neg (by omega), if_pos (Nat.le_refl j), Nat.sub_self, State.bufferByte_writeBuffer_same d hwf hb hj]
      rfl
    · obtain ⟨n, rfl⟩ : ∃ n, j = i + 1 + n := ⟨j - (i + 1), by omega⟩
      rw [if_pos (by omega), if_pos (by omega), State.bufferByte_writeBuffer_other d (by omega) hj (.inr (by omega)),
        Nat.add_sub_cancel_left, show i + 1 + n - i = n + 1 by omega, List.getD_cons_succ]

/-- A store leaves every address outside its buffer as it was. -/
theorem State.read_storeBytes_outside {s : State} {buffer : Option Nat} {i address : Nat} {bytes : List Byte}
    (hlen : i + bytes.length ≤ 32) (h : ∀ b ∈ buffer, address < 32 * b ∨ 32 * b + 32 ≤ address) :
    (s.storeBytes buffer i bytes).memory.read address = s.memory.read address := by
  induction bytes generalizing s i with
  | nil => rfl
  | cons d rest ih =>
    rw [List.length_cons] at hlen
    rw [State.storeBytes, ih (by omega)]
    cases buffer with
    | none => rfl
    | some b =>
      have hout := h b rfl
      rw [State.storeByte, State.writeBuffer]
      split
      · exact Memory.read_write_other _ _ (by unfold bufferAddress; omega)
      · rfl

/-- The payload byte at place `n` is the answer's character `n + 3` (R5, R94). -/
theorem State.storePayload_eq {s : State} {n : Nat} (c : Context) (d : Byte) (h : s.reception.taken = n + 3) :
    s.storePayload c d = s.storeByte c.answerBuffer n d := by
  unfold State.storePayload State.storeByte
  cases c.answerBuffer with
  | none => rfl
  | some b => simp [h]

/-! ## The part while an answer comes in -/

/-- The line is undisturbed, with this parity in force, and the attempt's answer can come in. -/
structure State.TakesAnswer (s : State) (c : Context) (p : Parity) : Prop where
  live : s.resetHeld = false
  listening : s.de = false
  started : s.mode ≠ .stopped
  ready : s.receiver = Receiver.ready
  flight : s.context = some c
  unjudged : c.verdict = none
  parity : s.lineConfig.parity = p

/-- The part in RECEIVING with an answer taken so far, its character-gap timer loaded. -/
def State.receivingWith (s : State) (r : Reception) : State :=
  { s with
    phase := .receiving
    timer := ⟨.characterGap, s.lineConfig.characterGap * s.characterBits⟩
    reception := r }

/-- The beginning of an answer keeps the line as it is. -/
theorem State.TakesAnswer.beginReception {s : State} {c : Context} {p : Parity} (h : s.TakesAnswer c p) :
    s.beginReception.TakesAnswer c p := by
  rw [State.beginReception_eq]
  exact ⟨h.live, h.listening, h.started, h.ready, h.flight, h.unjudged, h.parity⟩

/-- A stored payload byte keeps the line as it is. -/
theorem State.TakesAnswer.storeByte {s : State} {c : Context} {p : Parity} (h : s.TakesAnswer c p)
    (buffer : Option Nat) (i : Nat) (d : Byte) : (s.storeByte buffer i d).TakesAnswer c p := by
  rw [State.storeByte_eq]
  exact ⟨h.live, h.listening, h.started, h.ready, h.flight, h.unjudged, h.parity⟩

/-- Stored payload bytes keep the line as it is. -/
theorem State.TakesAnswer.storeBytes {s : State} {c : Context} {p : Parity} (h : s.TakesAnswer c p)
    (buffer : Option Nat) (i : Nat) (bytes : List Byte) : (s.storeBytes buffer i bytes).TakesAnswer c p := by
  rw [State.storeBytes_eq]
  exact ⟨h.live, h.listening, h.started, h.ready, h.flight, h.unjudged, h.parity⟩

/-- What has been taken of the answer does not bear on the line. -/
theorem State.TakesAnswer.receivingWith {s : State} {c : Context} {p : Parity} (h : s.TakesAnswer c p)
    (r : Reception) : (s.receivingWith r).TakesAnswer c p :=
  ⟨h.live, h.listening, h.started, h.ready, h.flight, h.unjudged, h.parity⟩

/-! ## One character of the answer -/

/-- The arrivals of one character on an undisturbed line (R4). -/
def characterArrivals (p : Parity) (d : Byte) (m : Bool) : List Instr :=
  [.confirmedStartBit, .characterDelivered d m (p.sent d m) true]

/-- A clean character, delivered in RECEIVING with the receiver inside it, goes to the answer (R94). -/
theorem State.TakesAnswer.exec_characterDelivered {s : State} {c : Context} {p : Parity} (h : s.TakesAnswer c p)
    (hphase : s.phase = .receiving) (d : Byte) (m : Bool) :
    exec (.characterDelivered d m (p.sent d m) true) s.insideCharacter =
      .next (s.answerCharacter ⟨d, m, true, true⟩) := by
  have hcan : s.insideCharacter.receiver.canDeliver = true := by
    rw [State.insideCharacter, h.ready]
    rfl
  have hjudged : s.insideCharacter.judgeSamples d m (p.sent d m) true = ⟨d, m, true, true⟩ := by
    rw [State.judgeSamples, show s.insideCharacter.rxParity = p from h.parity, Parity.passes_sent]
  rw [exec_characterDelivered_of_receiving (s := s.insideCharacter) h.live h.listening h.started hphase hcan
    (Parity.isSpaceCharacter_stop _ _ _ _), State.insideCharacter_sampled h.ready, hjudged]

/-- A character in RECEIVING goes to the answer (R94). -/
theorem State.TakesAnswer.execAll_character {s : State} {c : Context} {p : Parity} (h : s.TakesAnswer c p)
    (hphase : s.phase = .receiving) (d : Byte) (m : Bool) :
    execAll (characterArrivals p d m) s = .next (s.answerCharacter ⟨d, m, true, true⟩) := by
  have hstart : exec .confirmedStartBit s = .next s.insideCharacter := by
    rw [exec_of_live (i := .confirmedStartBit) rfl h.live,
      State.startCharacter_of_not_waiting (by rw [h.ready]; rfl) (by simp [hphase])]
  rw [characterArrivals, execAll_cons hstart, execAll_cons (h.exec_characterDelivered hphase d m)]
  rfl

/-- The first character, in WAITING, begins the answer and goes to it (R93, R94). -/
theorem State.TakesAnswer.execAll_firstCharacter {s : State} {c : Context} {p : Parity} (h : s.TakesAnswer c p)
    (hphase : s.phase = .waiting) (d : Byte) (m : Bool) :
    execAll (characterArrivals p d m) s = .next (s.beginReception.answerCharacter ⟨d, m, true, true⟩) := by
  have hcommute : s.insideCharacter.beginReception = s.beginReception.insideCharacter := by
    unfold State.beginReception
    rw [show s.insideCharacter.context = s.context from rfl]
    split <;> rfl
  have hstart : exec .confirmedStartBit s = .next s.beginReception.insideCharacter := by
    rw [exec_of_live (i := .confirmedStartBit) rfl h.live,
      State.startCharacter_of_waiting (by rw [h.ready]; rfl) hphase, hcommute]
  have hreceiving : s.beginReception.phase = .receiving := by rw [State.beginReception_eq]
  rw [characterArrivals, execAll_cons hstart, execAll_cons (h.beginReception.exec_characterDelivered hreceiving d m)]
  rfl

/-- In RECEIVING, a kept character loads the character-gap timer again (R96). -/
theorem State.awaitCharacter_eq {s : State} (h : s.phase = .receiving) (r : Reception) :
    State.awaitCharacter { s with reception := r } = s.receivingWith r := by
  rw [State.receivingWith, ← h]
  rfl

/-- An answer's character with the mark bit of its place has only its field test before it (R94). -/
theorem Reception.failure_of_clean (r : Reception) (c : Context) (d : Byte) :
    r.failure c ⟨d, r.taken == 0, true, true⟩ = r.test c d := by
  simp [Reception.failure, Delivered.test]

/-- Behind the length a character with mark 0 has no test to fail (R94). -/
theorem Reception.failure_of_behind_length {r : Reception} (c : Context) (d : Byte) (h : 3 ≤ r.taken) :
    r.failure c ⟨d, false, true, true⟩ = none := by
  have hmark : (r.taken == 0) = false := beq_eq_false_iff_ne.2 (by omega)
  rw [← hmark, Reception.failure_of_clean, Reception.test_of_other _ _ (by omega) (by omega)]

/-- The address, the control and the length of an answer are kept, and nothing is stored (R94). -/
theorem State.TakesAnswer.answerCharacter_header {s : State} {c : Context} {p : Parity} {d : Byte}
    (h : s.TakesAnswer c p) (hphase : s.phase = .receiving) (hpass : s.reception.test c d = none)
    (ht : s.reception.taken < 3) :
    s.answerCharacter ⟨d, s.reception.taken == 0, true, true⟩ = s.receivingWith (s.reception.keep d) := by
  have hstore : s.storePayload c d = s := by
    unfold State.storePayload
    split
    · rfl
    · rw [if_neg (by omega)]
  rw [State.answerCharacter_of_kept h.flight h.unjudged (by rwa [Reception.failure_of_clean]) (.inl ht),
    State.awaitCharacter_eq (by split <;> simp [hphase]), hstore, ite_self]

/-- A payload byte is kept and stored (R94). -/
theorem State.TakesAnswer.answerCharacter_payload {s : State} {c : Context} {p : Parity} {d : Byte} {n : Nat}
    (h : s.TakesAnswer c p) (hphase : s.phase = .receiving) (ht : s.reception.taken = n + 3)
    (hn : n < s.reception.length) :
    s.answerCharacter ⟨d, false, true, true⟩ =
      (s.storeByte c.answerBuffer n d).receivingWith (s.reception.keep d) := by
  have hpass := Reception.failure_of_behind_length (r := s.reception) c d (by omega)
  rw [State.answerCharacter_of_kept h.flight h.unjudged hpass (.inr (by omega)), if_pos (by omega),
    State.awaitCharacter_eq (by simp [hphase]), State.storePayload_eq c d ht]

/-- Check A is kept (R94). -/
theorem State.TakesAnswer.answerCharacter_checkA {s : State} {c : Context} {p : Parity} {a : Byte}
    (h : s.TakesAnswer c p) (hphase : s.phase = .receiving) (ht : s.reception.taken = s.reception.length + 3) :
    s.answerCharacter ⟨a, false, true, true⟩ = s.receivingWith (s.reception.keep a) := by
  have hpass := Reception.failure_of_behind_length (r := s.reception) c a (by omega)
  rw [State.answerCharacter_of_kept h.flight h.unjudged hpass (.inr (by omega)), if_neg (by omega),
    State.awaitCharacter_eq hphase]

/-- Check B brings the judgement (R95). -/
theorem State.TakesAnswer.answerCharacter_checkB {s : State} {c : Context} {p : Parity} {b : Byte}
    (h : s.TakesAnswer c p) (ht : s.reception.taken = s.reception.length + 4) :
    s.answerCharacter ⟨b, false, true, true⟩ =
      State.enterSettling { s with context := some (c.judge (s.reception.close c.kind b)) } := by
  have hpass := Reception.failure_of_behind_length (r := s.reception) c b (by omega)
  exact State.answerCharacter_of_checkB h.flight h.unjudged hpass (by omega) (by omega)

/-! ## What is kept of the answer (R9, R94) -/

/-- What is kept once the address and the covered characters so far have been taken: control, length and payload. -/
def Reception.covering (control : Byte) (length : Nat) (covered : List Byte) : Reception :=
  { taken := covered.length + 1, control := control, length := length, sum := checkSum covered,
    exclusiveOr := checkB covered, firstPayload := covered.getD 2 0 }

/-- Of the address only its place is kept. -/
theorem Reception.keep_address (d : Byte) : Reception.fresh.keep d = Reception.covering 0 0 [] := rfl

/-- The control character is the first covered one. -/
theorem Reception.keep_control (control : Byte) :
    (Reception.covering 0 0 []).keep control = Reception.covering control 0 [control] := rfl

/-- The length character is the second. -/
theorem Reception.keep_length (control d : Byte) :
    (Reception.covering control 0 [control]).keep d = Reception.covering control d.toNat [control, d] := rfl

/-- The payload bytes follow. -/
theorem Reception.keep_payload {n : Nat} {q : List Byte} (control len d : Byte) (h : q.length < n) :
    (Reception.covering control n (control :: len :: q)).keep d =
      Reception.covering control n (control :: len :: (q ++ [d])) := by
  have hfirst : (if q.length = 0 then d else (control :: len :: q).getD 2 0) =
      (control :: len :: (q ++ [d])).getD 2 0 := by
    cases q <;> rfl
  simp only [Reception.covering, Reception.keep, List.length_cons, if_pos h, hfirst]
  simp [checkSum, checkB]

/-- What is kept once Check A has been taken as well: it only adds to the sum. -/
def Reception.awaitingCheckB (control : Byte) (length : Nat) (covered : List Byte) (a : Byte) : Reception :=
  { Reception.covering control length covered with taken := length + 4, sum := checkSum covered + a }

/-- Check A follows the covered characters. -/
theorem Reception.keep_checkA {n : Nat} {covered : List Byte} (control a : Byte) (h : covered.length = n + 2) :
    (Reception.covering control n covered).keep a = Reception.awaitingCheckB control n covered a := by
  simp [Reception.covering, Reception.keep, Reception.awaitingCheckB, h]

/-! ## The whole answer -/

/-- The arrivals of a telegram's characters from place `i` on. -/
def telegramArrivalsFrom (p : Parity) (i : Nat) (characters : List Byte) : List Instr :=
  (characters.zipIdx i).flatMap fun (d, j) => characterArrivals p d (j == 0)

/-- Every character after the first has mark 0 (R5). -/
theorem telegramArrivalsFrom_later (p : Parity) (i : Nat) (rest : List Byte) :
    telegramArrivalsFrom p (i + 1) rest = rest.flatMap (characterArrivals p · false) := by
  induction rest generalizing i with
  | nil => rfl
  | cons d rest ih =>
    rw [List.flatMap_cons, ← ih (i + 1)]
    rfl

/-- A telegram's arrivals: its address with mark 1, every later character with mark 0 (R5). -/
theorem telegramArrivals_cons (p : Parity) (address : Byte) (rest : List Byte) :
    telegramArrivals p (address :: rest) =
      characterArrivals p address true ++ rest.flatMap (characterArrivals p · false) := by
  rw [← telegramArrivalsFrom_later p 0]
  rfl

/-- A stored byte and the answer taken so far do not bear on each other. -/
theorem State.receivingWith_storeByte (s : State) (r r' : Reception) (buffer : Option Nat) (i : Nat) (d : Byte) :
    ((s.receivingWith r).storeByte buffer i d).receivingWith r' = (s.storeByte buffer i d).receivingWith r' := by
  cases buffer with
  | none => rfl
  | some b =>
    simp only [State.storeByte, State.writeBuffer]
    split <;> rfl

/-- The payload bytes of an answer come in one by one and stand in the answer buffer (R8, R94). -/
theorem State.TakesAnswer.execAll_payload {s : State} {c : Context} {p : Parity} {control len : Byte} {n : Nat}
    {q rest : List Byte} (h : s.TakesAnswer c p) (hlen : q.length + rest.length ≤ n) :
    execAll (rest.flatMap (characterArrivals p · false))
        (s.receivingWith (Reception.covering control n (control :: len :: q))) =
      .next ((s.storeBytes c.answerBuffer q.length rest).receivingWith
        (Reception.covering control n (control :: len :: (q ++ rest)))) := by
  induction rest generalizing s q with
  | nil => rw [List.append_nil]; rfl
  | cons d rest ih =>
    rw [List.length_cons] at hlen
    have hstored : (s.receivingWith (Reception.covering control n (control :: len :: q))).answerCharacter
        ⟨d, false, true, true⟩ = (s.storeByte c.answerBuffer q.length d).receivingWith
          (Reception.covering control n (control :: len :: (q ++ [d]))) := by
      rw [(h.receivingWith (.covering control n (control :: len :: q))).answerCharacter_payload
          (n := q.length) rfl rfl (show q.length < n by omega),
        State.receivingWith_storeByte, ← Reception.keep_payload control len d (by omega)]
      rfl
    rw [List.flatMap_cons, execAll_append ((h.receivingWith _).execAll_character rfl d false), hstored]
    have hrest := ih (q := q ++ [d]) (h.storeByte c.answerBuffer q.length d) (by simp; omega)
    rw [List.length_append, List.append_assoc] at hrest
    exact hrest

/-- The three characters of an answer's header come in: its address, its control character and its length (R94). -/
theorem State.TakesAnswer.execAll_header {s : State} {c : Context} {p : Parity} {address control len : Byte}
    (h : s.TakesAnswer c p) (hphase : s.phase = .waiting) (hdirection : address.toNat / 32 = 4)
    (hstation : address.toNat % 32 = c.station) (hlen : len.toNat ≤ 32) :
    execAll (characterArrivals p address true ++
        (characterArrivals p control false ++ characterArrivals p len false)) s =
      .next (s.beginReception.receivingWith (Reception.covering control len.toNat [control, len])) := by
  have hb := h.beginReception
  have hreceiving : s.beginReception.phase = .receiving := by rw [State.beginReception_eq]
  have hfresh : s.beginReception.reception = Reception.fresh := by rw [State.beginReception_eq]
  have haddress : s.beginReception.answerCharacter ⟨address, true, true, true⟩ =
      s.beginReception.receivingWith (Reception.covering 0 0 []) := by
    have hpass : s.beginReception.reception.test c address = none := by
      rw [hfresh, Reception.test_of_address _ _ rfl, if_neg (not_not.2 hdirection), if_neg (not_not.2 hstation)]
    have hkept := hb.answerCharacter_header hreceiving hpass (by rw [hfresh]; decide)
    rw [hfresh, Reception.keep_address] at hkept
    exact hkept
  have hcontrol : (s.beginReception.receivingWith (.covering 0 0 [])).answerCharacter ⟨control, false, true, true⟩ =
      s.beginReception.receivingWith (.covering control 0 [control]) := by
    rw [← Reception.keep_control]
    exact (hb.receivingWith (.covering 0 0 [])).answerCharacter_header rfl (Reception.test_of_other _ _ nofun nofun)
      (show 1 < 3 by decide)
  have hlength : (s.beginReception.receivingWith (.covering control 0 [control])).answerCharacter
      ⟨len, false, true, true⟩ =
      s.beginReception.receivingWith (.covering control len.toNat [control, len]) := by
    rw [← Reception.keep_length]
    exact (hb.receivingWith (.covering control 0 [control])).answerCharacter_header rfl
      ((Reception.test_of_length _ _ rfl).trans (if_neg (by omega))) (show 2 < 3 by decide)
  rw [execAll_append (h.execAll_firstCharacter hphase address true), haddress,
    execAll_append ((hb.receivingWith _).execAll_character rfl control false), hcontrol,
    (hb.receivingWith _).execAll_character rfl len false, hlength]

/-- The two check characters come in, and the answer is judged (R95). -/
theorem State.TakesAnswer.execAll_checks {s : State} {c : Context} {p : Parity} {control : Byte} {n : Nat}
    {covered : List Byte} (a b : Byte) (h : s.TakesAnswer c p) (hcovered : covered.length = n + 2) :
    execAll (characterArrivals p a false ++ characterArrivals p b false)
        (s.receivingWith (.covering control n covered)) =
      .next (State.enterSettling { s.receivingWith (.awaitingCheckB control n covered a) with
        context := some (c.judge ((Reception.awaitingCheckB control n covered a).close c.kind b)) }) := by
  have hcheckA : (s.receivingWith (.covering control n covered)).answerCharacter ⟨a, false, true, true⟩ =
      s.receivingWith (.awaitingCheckB control n covered a) := by
    rw [(h.receivingWith (.covering control n covered)).answerCharacter_checkA rfl (congrArg (· + 1) hcovered),
      ← Reception.keep_checkA control a hcovered]
    rfl
  have hchecks := h.receivingWith (.awaitingCheckB control n covered a)
  rw [execAll_append ((h.receivingWith _).execAll_character rfl a false), hcheckA,
    hchecks.execAll_character rfl b false,
    hchecks.answerCharacter_checkB rfl]
  rfl

/-- A whole answer of the called station comes in: its payload stands in the answer buffer, and it is judged (R93 to
R95). -/
theorem State.TakesAnswer.execAll_answer {s : State} {c : Context} {p : Parity} {control a b : Byte}
    {payload : List Byte} (h : s.TakesAnswer c p) (hphase : s.phase = .waiting) (hlow : 1 ≤ c.station)
    (hhigh : c.station ≤ 31) (hlen : payload.length ≤ 32) :
    execAll (telegramArrivals p (BitVec.ofNat 8 (128 + c.station) ::
        ((control :: BitVec.ofNat 8 payload.length :: payload) ++ [a, b]))) s =
      .next (State.enterSettling
        { (s.beginReception.storeBytes c.answerBuffer 0 payload).receivingWith (.awaitingCheckB control payload.length
            (control :: BitVec.ofNat 8 payload.length :: payload) a) with
          context := some (c.judge ((Reception.awaitingCheckB control payload.length
            (control :: BitVec.ofNat 8 payload.length :: payload) a).close c.kind b)) }) := by
  have haddress : (BitVec.ofNat 8 (128 + c.station)).toNat = 128 + c.station := by
    rw [BitVec.toNat_ofNat]
    omega
  have hlength : (BitVec.ofNat 8 payload.length).toNat = payload.length := by
    rw [BitVec.toNat_ofNat]
    omega
  have hheader := h.execAll_header (address := BitVec.ofNat 8 (128 + c.station)) (control := control)
    (len := BitVec.ofNat 8 payload.length) hphase (by omega) (by omega) (by omega)
  rw [hlength] at hheader
  have hpayload := h.beginReception.execAll_payload (control := control) (len := BitVec.ofNat 8 payload.length)
    (q := []) (rest := payload) (n := payload.length) (by simp)
  have hchecks := (h.beginReception.storeBytes c.answerBuffer 0 payload).execAll_checks (control := control)
    (n := payload.length) (covered := control :: BitVec.ofNat 8 payload.length :: payload) a b rfl
  have harrivals : telegramArrivals p (BitVec.ofNat 8 (128 + c.station) ::
        ((control :: BitVec.ofNat 8 payload.length :: payload) ++ [a, b])) =
      (characterArrivals p (BitVec.ofNat 8 (128 + c.station)) true ++
          (characterArrivals p control false ++ characterArrivals p (BitVec.ofNat 8 payload.length) false)) ++
        payload.flatMap (characterArrivals p · false) ++
          (characterArrivals p a false ++ characterArrivals p b false) := by
    simp [telegramArrivals_cons]
  rw [harrivals, execAll_append ((execAll_append hheader).trans hpayload)]
  exact hchecks

/-! ## The closing tests (R12, R95) -/

/-- The three high bits of a control value, as a number (R7). -/
theorem controlHighClear_iff (control : Byte) : controlHighClear control = true ↔ control.toNat < 32 := by
  have hdiv : control.toNat < 32 ↔ control.toNat / 32 = 0 := by omega
  rw [hdiv, toNat_div_32, controlHighClear]
  cases control.getLsbD 5 <;> cases control.getLsbD 6 <;> cases control.getLsbD 7 <;> decide

/-- A check character that does not agree is CHECK (R95). -/
theorem Reception.close_of_disagree {r : Reception} (call : CallKind) {b : Byte}
    (h : ¬ (r.sum = 0 ∧ b = r.exclusiveOr)) :
    r.close call b = .badAnswer .check := by
  rw [Reception.close, if_pos]
  by_contra hno
  rw [not_or, not_not, not_not] at hno
  exact h ⟨hno.1, hno.2.symm⟩

/-- Then a high bit of the control character, or a kind that is none or not valid after the call, is WRONG_KIND
(R95). -/
theorem Reception.close_of_wrongKind {r : Reception} {call : CallKind} {b : Byte}
    (hagree : r.sum = 0 ∧ b = r.exclusiveOr)
    (h : 32 ≤ r.control.toNat ∨ ∀ k, answerKindOf r.control = some k → k.validAfter call = false) :
    r.close call b = .badAnswer .wrongKind := by
  obtain ⟨hsum, rfl⟩ := hagree
  rw [Reception.close, if_neg (by simp [hsum])]
  by_cases hhigh : 32 ≤ r.control.toNat
  · have hclear : controlHighClear r.control = false :=
      Bool.eq_false_iff.2 fun hc => Nat.not_lt.2 hhigh ((controlHighClear_iff _).1 hc)
    simp [hclear]
  · have hclear : controlHighClear r.control = true := (controlHighClear_iff _).2 (Nat.not_le.1 hhigh)
    have hkinds := h.resolve_left hhigh
    cases hk : answerKindOf r.control with
    | none => simp [hclear]
    | some k => simp [hclear, hkinds k hk]

/-- Then the length is judged by the kind; an answer that passes is valid (R95). -/
theorem Reception.close_of_kind {r : Reception} {call : CallKind} {b : Byte} {k : AnswerKind}
    (hagree : r.sum = 0 ∧ b = r.exclusiveOr) (hlow : r.control.toNat < 32) (hk : answerKindOf r.control = some k)
    (hvalid : k.validAfter call = true) :
    r.close call b =
      if k.lengthAllowed r.length = true then
        .valid k r.length (r.control.getLsbD 4) (if k = .refuse then some r.firstPayload else none)
      else .badAnswer .lengthRange := by
  obtain ⟨hsum, rfl⟩ := hagree
  have hclear : controlHighClear r.control = true := (controlHighClear_iff _).2 hlow
  rw [Reception.close, if_neg (by simp [hsum])]
  cases hlen : k.lengthAllowed r.length <;> simp [hclear, hk, hvalid, hlen]

/-- The table of R12: the kind field, the kind, the calls after which it is valid, and the least and the greatest
length. -/
def answerTable : List (Nat × AnswerKind × List CallKind × Nat × Nat) :=
  [(1, .accept, [.write], 0, 0), (2, .data, [.read, .exchange], 0, 32), (3, .busy, [.write, .read, .exchange], 0, 0),
    (4, .refuse, [.write, .read, .exchange], 1, 1), (5, .report, [.poll], 1, 32), (6, .nothing, [.poll], 0, 0)]

/-- A row of the table says what the model's tests say of its kind (R12). -/
theorem answerTable_row {control : Byte} {k : AnswerKind} {calls : List CallKind} {low high : Nat}
    (h : (control.toNat % 8, k, calls, low, high) ∈ answerTable) :
    answerKindOf control = some k ∧ (∀ call, k.validAfter call = true ↔ call ∈ calls) ∧
      ∀ n, k.lengthAllowed n = true ↔ low ≤ n ∧ n ≤ high := by
  simp only [answerTable, List.mem_cons, Prod.mk.injEq, List.not_mem_nil, or_false] at h
  unfold answerKindOf
  rcases h with ⟨hn, rfl, rfl, rfl, rfl⟩ | ⟨hn, rfl, rfl, rfl, rfl⟩ | ⟨hn, rfl, rfl, rfl, rfl⟩ |
    ⟨hn, rfl, rfl, rfl, rfl⟩ | ⟨hn, rfl, rfl, rfl, rfl⟩ | ⟨hn, rfl, rfl, rfl, rfl⟩
  all_goals
    rw [hn]
    refine ⟨rfl, fun call => by cases call <;> decide, fun n => ?_⟩
    simp only [AnswerKind.lengthAllowed, beq_iff_eq, decide_eq_true_eq, Bool.and_eq_true] <;> omega

/-- Every kind that the model reads has its row (R12). -/
theorem exists_answerTable_row {control : Byte} {k : AnswerKind} (h : answerKindOf control = some k) :
    ∃ calls low high, (control.toNat % 8, k, calls, low, high) ∈ answerTable := by
  unfold answerKindOf at h
  split at h
  case h_7 => cases h
  all_goals
    rename_i hn
    obtain rfl := Option.some.inj h
    rw [hn]
    simp [answerTable]

/-- The code of a REFUSE is its one payload byte (R95). -/
theorem Reception.refusal_eq {k : AnswerKind} {control a : Byte} {payload covered : List Byte}
    (hcovered : covered = control :: BitVec.ofNat 8 payload.length :: payload)
    (hlen : k.lengthAllowed payload.length = true) :
    (if k = .refuse then some (Reception.awaitingCheckB control payload.length covered a).firstPayload else none) =
      if k = .refuse then payload.head? else none := by
  subst hcovered
  split
  · rename_i hk
    subst hk
    obtain ⟨x, rfl⟩ := List.length_eq_one_iff.1 (beq_iff_eq.1 hlen)
    rfl
  · rfl

/-- A control character with a high bit set, or without a row that allows its kind after the call, is WRONG_KIND
(R12, R95). -/
theorem Reception.close_of_no_row {call : CallKind} {control a b : Byte} {n : Nat} {covered : List Byte}
    (hagree : checkSum covered + a = 0 ∧ b = checkB covered)
    (h : 32 ≤ control.toNat ∨ ∀ (k : AnswerKind) (calls : List CallKind) (low high : Nat),
      (control.toNat % 8, k, calls, low, high) ∈ answerTable → call ∉ calls) :
    (Reception.awaitingCheckB control n covered a).close call b = .badAnswer .wrongKind := by
  refine Reception.close_of_wrongKind hagree (h.imp id fun hrows k hk => Bool.eq_false_iff.2 fun hv => ?_)
  obtain ⟨calls, low, high, hrow⟩ := exists_answerTable_row hk
  obtain ⟨-, hvalid, -⟩ := answerTable_row hrow
  exact hrows k calls low high hrow ((hvalid call).1 hv)

/-- A row that allows the kind after the call judges the length; an answer within it is valid (R12, R95). -/
theorem Reception.close_of_row {call : CallKind} {control a b : Byte} {payload covered : List Byte} {k : AnswerKind}
    {calls : List CallKind} {low high : Nat}
    (hcovered : covered = control :: BitVec.ofNat 8 payload.length :: payload)
    (hagree : checkSum covered + a = 0 ∧ b = checkB covered) (hcontrol : control.toNat < 32)
    (hrow : (control.toNat % 8, k, calls, low, high) ∈ answerTable) (hcall : call ∈ calls) :
    (Reception.awaitingCheckB control payload.length covered a).close call b =
      if low ≤ payload.length ∧ payload.length ≤ high then
        .valid k payload.length (control.getLsbD 4) (if k = .refuse then payload.head? else none)
      else .badAnswer .lengthRange := by
  obtain ⟨hk, hvalid, hallowed⟩ := answerTable_row hrow
  have hclose := Reception.close_of_kind (r := .awaitingCheckB control payload.length covered a) hagree hcontrol hk
    ((hvalid call).2 hcall)
  rw [hclose]
  split <;> rename_i hl
  · rw [if_pos ((hallowed payload.length).1 hl), Reception.refusal_eq hcovered hl]
    rfl
  · rw [if_neg fun hin => hl ((hallowed payload.length).2 hin)]

/-- The answer buffer as the answer begins: as it was in the first attempt, 0x00 in a later one (R94, log entry 10). -/
theorem State.bufferByte_beginReception {s : State} {c : Context} {x i : Nat} (hc : s.context = some c)
    (hx : c.answerBuffer = some x) (hi : i < 32) :
    s.beginReception.bufferByte x i = if c.lastDetail = none then s.bufferByte x i else 0 := by
  unfold State.bufferByte
  split
  · rename_i hfirst
    rw [State.beginReception_memory_of_first]
    intro c' hc'
    obtain rfl := Option.some.inj (hc.symm.trans hc')
    exact .inr hfirst
  · rename_i hlater
    rw [State.beginReception_memory_of_later hc hx hlater]
    exact State.bufferByte_clearBuffer_same (s := s) hi

/-- The beginning of an answer keeps the canonical form of message memory. -/
theorem State.wf_beginReception {s : State} (h : s.memory.wf = true) : s.beginReception.memory.wf = true := by
  unfold State.beginReception
  split
  · exact State.wf_clearBuffer _ h
  · exact h

/-- The beginning of an answer leaves every address outside the answer buffer as it was (R94). -/
theorem State.read_beginReception_outside {s : State} {c : Context} {address : Nat} (hc : s.context = some c)
    (h : ∀ x ∈ c.answerBuffer, address < 32 * x ∨ 32 * x + 32 ≤ address) :
    s.beginReception.memory.read address = s.memory.read address := by
  by_cases hfirst : c.answerBuffer = none ∨ c.lastDetail = none
  · rw [State.beginReception_memory_of_first]
    intro c' hc'
    obtain rfl := Option.some.inj (hc.symm.trans hc')
    exact hfirst
  · obtain ⟨hbuffer, hlater⟩ := not_or.1 hfirst
    obtain ⟨x, hx⟩ := Option.ne_none_iff_exists'.1 hbuffer
    have hout := h x hx
    rw [State.beginReception_memory_of_later hc hx hlater]
    exact Memory.read_clear_outside (by unfold bufferAddress; omega)

/-- Settles O43: the answer comes in whole, the closing tests judge it, and its payload stands in the answer buffer. -/
theorem answerTelegramJudged : Obligations.AnswerTelegramJudged := by
  rintro s c judged control a b payload covered table agree hs hde hmode hphase hrx hc hlow hhigh hv hwf hbuffer hlen
    rfl hcovered hagree hjudged
  have htakes : s.TakesAnswer c s.lineConfig.parity := ⟨hs, hde, hmode, hrx, hc, hv, rfl⟩
  have hanswer := htakes.execAll_answer (control := control) (a := a) (b := b) hphase hlow hhigh hlen
  have hjudge : c.judge ((Reception.awaitingCheckB control payload.length covered a).close c.kind b) = judged := by
    rcases hjudged with ⟨hno, rfl⟩ | ⟨hyes, hkind, rfl⟩ |
      ⟨hyes, hcontrol, k, calls, low, high, hrow, hcall, ⟨hout, rfl⟩ | ⟨hmin, hmax, rfl⟩⟩
    · rw [Reception.close_of_disagree _ (hno ∘ hagree.2)]
      rfl
    · rw [Reception.close_of_no_row (hagree.1 hyes) hkind]
      rfl
    · rw [Reception.close_of_row hcovered (hagree.1 hyes) hcontrol hrow hcall, if_neg hout]
      rfl
    · rw [Reception.close_of_row hcovered (hagree.1 hyes) hcontrol hrow hcall, if_pos ⟨hmin, hmax⟩]
      rfl
  rw [← hcovered, hjudge] at hanswer
  refine ⟨_, hanswer, ?_, fun x hx i hi => ?_, fun address hout => ?_⟩
  · rw [State.storeBytes_eq, State.beginReception_eq]
    rfl
  · have hstored := State.bufferByte_storeBytes (i := 0) (bytes := payload) (State.wf_beginReception hwf)
      (hbuffer x hx) (by omega) hi
    rw [if_pos (Nat.zero_le i), Nat.sub_zero, State.bufferByte_beginReception hc hx hi] at hstored
    rw [show c.answerBuffer = some x from hx]
    exact hstored
  · rw [← State.read_beginReception_outside hc hout]
    exact State.read_storeBytes_outside (by omega) hout

end Sys2Proof.Machine
end

section
/-! SUPPORT. What a row of the table can do, said once: besides the host window, the pins, the latched flags and
message memory, a row makes one of the acts below. An invariant that speaks of none of the former is kept by every
step as soon as each act keeps it. -/

namespace Sys2Proof.Machine

/-! ## What an invariant of the records and settings does not see -/

/-- The two states agree in everything but the host window, the pins, the latched flags, message memory, whether RESET#
is held, and the waiting commands. -/
def State.AgreesBehindWindow (s t : State) : Prop :=
  t = { s with
    resetHeld := t.resetHeld, port := t.port, readData := t.readData, args := t.args, latch := t.latch
    commandCode := t.commandCode, unit := t.unit, cmdResult := t.cmdResult, replies := t.replies
    bufSelect := t.bufSelect, bufOffset := t.bufOffset, faultReg := t.faultReg, timeSnapshot := t.timeSnapshot
    taken := t.taken, events := t.events, enableA := t.enableA, enableB := t.enableB, memory := t.memory
    pending := t.pending }

/-- A state agrees with itself. -/
theorem State.AgreesBehindWindow.refl (s : State) : s.AgreesBehindWindow s := by
  cases s
  constructor

/-! ## The acts -/

/-- What a row does behind the host window, one constructor per act, with what it has found when it makes it. -/
inductive State.Acts (s : State) : State → Prop
  | nothing : s.Acts s
  | allocate : s.Acts (s.takeHead .host)
  | release (b : Nat) (hb : b ≤ 63) : s.Acts (s.changeOwner b .host .free).look
  | submit (a : Args) (ha : submitArgumentsOk a = true) : s.Acts (s.enqueue a).look
  | cancelQueued (r : Request) (hr : r ∈ s.queue) : s.Acts (s.cancelQueued r)
  | cancelWaiting (c : Context) (hc : s.context = some c) (hphase : s.phase = .gap ∨ s.phase = .holdoff) :
      s.Acts (s.cancelWaiting c)
  | cancelFlying (c : Context) (hc : s.context = some c) (hphase : ¬ (s.phase = .gap ∨ s.phase = .holdoff)) :
      s.Acts { s with context := some { c with cancelPending := true } }
  | take (r : ResultRecord) (rest : List ResultRecord) (shown : Taken) (hr : s.results = r :: rest) :
      s.Acts (({ s with results := rest, taken := shown } : State).changeOwner? r.buffer .result .host).look
  | start (hmode : s.mode = .stopped) : s.Acts ({ s with mode := .running } : State).look
  | stop : s.Acts s.stopLine
  | abort : s.Acts (abortWork s).state
  | setLine (a : Args) (ha : lineArgumentsOk a = true) : s.Acts { s with lineConfig := LineConfig.ofArgs a }
  | clearCounters : s.Acts { s with strayCharacters := 0, conflicts := 0, breaks := 0 }
  | setLimits (a : Args) (ha : limitArgumentsOk a = true) : s.Acts { s with limits := Limits.ofArgs a }
  | configure (a : Args) : s.Acts (s.setStation a.arg0.toNat (s.configuredEntry a))
  | configureAndLook (a : Args) : s.Acts (s.setStation a.arg0.toNat (s.configuredEntry a)).look
  | clearChanged (a : Nat) : s.Acts (s.setStation a { s.station a with changed := false })
  | softReset : s.Acts s.softReset
  | hardReset (held : Bool) : s.Acts (s.hardReset held)
  | endInitialisation : s.Acts s.endInitialisation
  | receive (r : Receiver) : s.Acts { s with receiver := r }
  | beginReception (r : Receiver) (hphase : s.phase = .waiting) :
      s.Acts ({ s with receiver := r } : State).beginReception
  | takeCharacter (r : Receiver) (d : Delivered) : s.Acts (({ s with receiver := r } : State).takeCharacter d)
  | detectBreak : s.Acts s.detectBreak
  | endBreak : s.Acts s.endBreak
  | echoMissing (htx : s.tx ≠ .quiet) : s.Acts s.collide
  | characterSent (i : Nat) (htx : s.tx ≠ .quiet) : s.Acts (s.sendNext i)
  | telegramGapEnd (hphase : s.phase = .gap) : s.Acts s.enterCalling
  | deLeadEnd : s.Acts s.beginCall
  | deTrailEnd (htx : s.tx ≠ .quiet) : s.Acts s.completeCall
  | answerTimerEnd : s.Acts s.answerTimerEnd
  | characterGapEnd : s.Acts s.characterGapEnd
  | settleEnd : s.Acts s.settleEnd
  | holdoffEnd : s.Acts s.holdoffEnd
  | tick : s.Acts s.tick
  | tick10 : s.Acts s.tick10
  | tick100 : s.Acts s.tick100
  | look : s.Acts s.look
  | endHolds : s.Acts s.endHolds

/-- One act, with a change of the host window before it and one after it. -/
def State.Reaches (s t : State) : Prop :=
  ∃ s' t' : State, s.AgreesBehindWindow s' ∧ s'.Acts t' ∧ t'.AgreesBehindWindow t

/-- A change of the host window alone. -/
theorem State.AgreesBehindWindow.reaches {s t : State} (h : s.AgreesBehindWindow t) : s.Reaches t :=
  ⟨s, s, .refl s, .nothing, h⟩

/-- An act alone. -/
theorem State.Acts.reaches {s t : State} (h : s.Acts t) : s.Reaches t :=
  ⟨s, t, .refl s, h, .refl t⟩

/-- What every act keeps, and what the changes of the host window do not touch, is kept: `P` of the state before, `Q` of
the state after. -/
theorem State.Reaches.keeps {P Q : State → Prop} {s t : State} (h : s.Reaches t) (hs : P s)
    (hbefore : ∀ s t : State, s.AgreesBehindWindow t → P s → P t)
    (hafter : ∀ s t : State, s.AgreesBehindWindow t → Q s → Q t) (hact : ∀ s t : State, s.Acts t → P s → Q t) :
    Q t := by
  obtain ⟨s', t', hfirst, hmiddle, hlast⟩ := h
  exact hafter _ _ hlast (hact _ _ hmiddle (hbefore _ _ hfirst hs))

/-! ## The work of the commands -/

/-- RELEASE (R119). -/
theorem releaseWork_acts (s : State) : s.Acts (releaseWork s).state := by
  unfold releaseWork
  dsimp only
  split
  · exact .nothing
  · split
    · exact .release _ (by omega)
    · exact .nothing

/-- ALLOCATE (R119). -/
theorem allocateWork_acts (s : State) : s.Acts (allocateWork s).state := by
  unfold allocateWork
  split
  · exact .nothing
  · exact .allocate

/-- SUBMIT (R45 to R48). -/
theorem submitWork_acts (s : State) : s.Acts (submitWork s).state := by
  unfold submitWork
  split
  · exact .nothing
  · rename_i hok
    split
    · exact .nothing
    · split
      · exact .nothing
      · exact .submit _ (by simpa using hok)

/-- CANCEL (R49 to R53). -/
theorem cancelWork_acts (s : State) : s.Acts (cancelWork s).state := by
  unfold cancelWork
  dsimp only
  split
  · exact .nothing
  · split
    · rename_i r hr
      exact .cancelQueued r (List.mem_of_find?_eq_some hr)
    · split
      · exact .nothing
      · rename_i c hc
        split
        · split
          · exact .cancelWaiting c hc ‹_›
          · exact .cancelFlying c hc ‹_›
        · exact .nothing

/-- TAKE (R135, R136). -/
theorem takeWork_acts (s : State) : s.Acts (takeWork s).state := by
  unfold takeWork
  split
  · exact .nothing
  · exact .take _ _ _ ‹_›

/-- START (R143). -/
theorem startWork_acts (s : State) : s.Acts (startWork s).state := by
  unfold startWork
  split
  · exact .nothing
  · rename_i hmode
    split
    · exact .nothing
    · exact .start (by simpa using hmode)

/-- SET_LINE (R110). -/
theorem setLineWork_acts (s : State) : s.Acts (setLineWork s).state := by
  unfold setLineWork
  split
  · exact .nothing
  · rename_i hok
    split
    · exact .nothing
    · exact .setLine _ (by simpa using hok)

/-- GET_LINE (R111). -/
theorem getLineWork_acts (s : State) : s.Acts (getLineWork s).state := by
  unfold getLineWork
  dsimp only
  split
  · exact .nothing
  · dsimp only
    split
    · exact .clearCounters
    · exact .nothing

/-- SET_LIMITS (R148). -/
theorem setLimitsWork_acts (s : State) : s.Acts (setLimitsWork s).state := by
  unfold setLimitsWork
  split
  · exact .nothing
  · rename_i hok
    exact .setLimits _ (by simpa using hok)

/-- GET_LIMITS (R149). -/
theorem getLimitsWork_acts (s : State) : s.Acts (getLimitsWork s).state := by
  unfold getLimitsWork
  dsimp only
  split <;> exact .nothing

/-- SET_STATION (R28 to R34). -/
theorem setStationWork_acts (s : State) : s.Acts (setStationWork s).state := by
  unfold setStationWork
  split
  · exact .nothing
  · dsimp only
    split
    · exact .configure _
    · exact .configureAndLook _

/-- GET_STATION (R39). -/
theorem getStationWork_acts (s : State) : s.Acts (getStationWork s).state := by
  unfold getStationWork
  dsimp only
  split <;> exact .nothing

/-- NEXT_CHANGE (R37). -/
theorem nextChangeWork_acts (s : State) : s.Acts (nextChangeWork s).state := by
  unfold nextChangeWork
  split
  · exact .nothing
  · exact .clearChanged _

/-- The work that a code selects (R174, R176). -/
theorem workOf_acts (code : Byte) (s : State) : s.Acts (workOf code s).state := by
  generalize hwork : workOf code = work
  unfold workOf at hwork
  split at hwork <;> subst hwork
  · exact allocateWork_acts s
  · exact releaseWork_acts s
  · exact submitWork_acts s
  · exact cancelWork_acts s
  · exact takeWork_acts s
  · exact startWork_acts s
  · exact .stop
  · exact .abort
  · exact setLineWork_acts s
  · exact getLineWork_acts s
  · exact setLimitsWork_acts s
  · exact getLimitsWork_acts s
  · exact setStationWork_acts s
  · exact getStationWork_acts s
  · exact nextChangeWork_acts s
  · exact .nothing

/-! ## The rows -/

/-- A write of a command's code (R171, R173). -/
theorem State.hostCommand_reaches (s : State) (code : Byte) {work : State → Handled}
    (hwork : ∀ x : State, x.Acts (work x).state) : s.Reaches (s.hostCommand code work) := by
  rcases s.hostCommand_cases code work with ⟨-, h⟩ | ⟨-, -, h⟩ | ⟨-, -, h⟩ <;> rw [h]
  · exact Acts.nothing.reaches
  · exact AgreesBehindWindow.reaches rfl
  · exact ⟨s.handedOver code, (work (s.handedOver code)).state, rfl, hwork _, rfl⟩

/-- A row that RESET# holds off (R153). -/
theorem State.live_reaches (s : State) {f : State → State} (hf : s.Reaches (f s)) : s.Reaches (s.live f) := by
  rcases s.live_cases f with ⟨-, h⟩ | ⟨-, h⟩ <;> rw [h]
  · exact Acts.nothing.reaches
  · exact hf

/-- A write of RESET's code (R154, R173). -/
theorem State.resetCommand_reaches (s : State) : s.Reaches s.resetCommand := by
  unfold State.resetCommand
  split
  · exact Acts.nothing.reaches
  · split
    · exact Acts.softReset.reaches
    all_goals exact AgreesBehindWindow.reaches rfl

/-- A write of any code to COMMAND (R171, R173, R174). -/
theorem State.writeCommand_reaches (s : State) (code : Byte) : s.Reaches (s.writeCommand code) := by
  unfold State.writeCommand
  split
  · exact s.resetCommand_reaches
  · exact s.hostCommand_reaches code (workOf_acts code)

/-- A read of BUF_DATA (R121). -/
theorem State.readBufData_agrees (s : State) : s.AgreesBehindWindow s.readBufData := by
  unfold State.readBufData
  split <;> rfl

/-- A write of BUF_DATA (R121). -/
theorem State.writeBufData_agrees (s : State) (value : Byte) : s.AgreesBehindWindow (s.writeBufData value) := by
  unfold State.writeBufData State.writeBuffer
  split
  · split <;> rfl
  · rfl

/-- A write of ENABLE_A or ENABLE_B (R163). -/
theorem State.writeEnable_agrees (s : State) (bank : EventBank) (value : Byte) :
    s.AgreesBehindWindow (s.writeEnable bank value) := by
  cases bank <;> rfl

/-- A write access to any offset (R167). -/
theorem State.hostWrite_reaches (s : State) (offset : Offset) (value : Byte) :
    s.Reaches (s.hostWrite offset value) := by
  unfold State.hostWrite
  split
  case h_5 => exact s.writeCommand_reaches value
  case h_8 => exact (s.writeBufData_agrees value).reaches
  case h_9 =>
    split
    · exact AgreesBehindWindow.reaches rfl
    · exact Acts.nothing.reaches
  all_goals exact AgreesBehindWindow.reaches rfl

/-- The completion of a command (R172). -/
theorem State.completeCommand_agrees (s : State) : s.AgreesBehindWindow s.completeCommand := by
  unfold State.completeCommand
  split
  · rfl
  all_goals exact .refl s

/-- A confirmed start bit (R4, R93). -/
theorem State.startCharacter_acts (s : State) : s.Acts s.startCharacter := by
  unfold State.startCharacter
  split
  · dsimp only
    split
    · exact .beginReception _ ‹_›
    · exact .receive _
  · exact .nothing

/-- The delivery of a character (R4, R106). -/
theorem State.deliver_acts (s : State) (data : Byte) (mark parity stop : Bool) :
    s.Acts (s.deliver data mark parity stop) := by
  unfold State.deliver State.holdSpace
  split
  · split
    · dsimp only
      split
      · exact .beginReception _ ‹_›
      · exact .receive _
    · exact .takeCharacter _ _
  · exact .nothing

/-- The end of a held-back space (R106). -/
theorem State.releaseSpace_acts (s : State) : s.Acts s.releaseSpace := by
  unfold State.releaseSpace
  split
  · exact .takeCharacter _ _
  · exact .nothing

/-- The return to mark after a framing failure (R4). -/
theorem State.returnToMark_acts (s : State) : s.Acts s.returnToMark := by
  unfold State.returnToMark
  split
  · exact .receive _
  · exact .nothing

/-- The expiry of GAP's timer (R88). -/
theorem State.telegramGapEnd_acts (s : State) : s.Acts s.telegramGapEnd := by
  unfold State.telegramGapEnd
  split
  · rename_i h
    exact .telegramGapEnd h.1
  · exact .nothing

/-- The expiry of the DE lead timer (R89). -/
theorem State.deLeadEnd_acts (s : State) : s.Acts s.deLeadEnd := by
  unfold State.deLeadEnd
  split
  · exact .deLeadEnd
  · exact .nothing

/-- The expiry of the DE trail timer (R89). -/
theorem State.deTrailEnd_acts (s : State) : s.Acts s.deTrailEnd := by
  unfold State.deTrailEnd
  split
  · rename_i htx
    exact .deTrailEnd (by simp [htx])
  · exact .nothing

/-- A station that falls due for a poll (R71). -/
theorem State.pollFallsDue_acts (s : State) (a : Nat) : s.Acts (s.pollFallsDue a) := by
  unfold State.pollFallsDue
  split
  · exact .look
  · exact .nothing

/-- A station that falls due for a probe (R72). -/
theorem State.probeFallsDue_acts (s : State) (a : Nat) : s.Acts (s.probeFallsDue a) := by
  unfold State.probeFallsDue
  split
  · exact .look
  · exact .nothing

/-- Every row answers a next state, and makes one act behind the host window. -/
theorem exec_reaches (i : Instr) (s : State) : ∃ t, exec i s = .next t ∧ s.Reaches t := by
  cases i with
  | reset => exact ⟨_, rfl, s.resetCommand_reaches⟩
  | unknownCommand code => exact ⟨_, rfl, s.writeCommand_reaches code⟩
  | discardedCommandWrite code => exact ⟨_, rfl, s.writeCommand_reaches code⟩
  | allocate => exact ⟨_, rfl, s.hostCommand_reaches _ allocateWork_acts⟩
  | release => exact ⟨_, rfl, s.hostCommand_reaches _ releaseWork_acts⟩
  | submit => exact ⟨_, rfl, s.hostCommand_reaches _ submitWork_acts⟩
  | cancel => exact ⟨_, rfl, s.hostCommand_reaches _ cancelWork_acts⟩
  | take => exact ⟨_, rfl, s.hostCommand_reaches _ takeWork_acts⟩
  | start => exact ⟨_, rfl, s.hostCommand_reaches _ startWork_acts⟩
  | stop => exact ⟨_, rfl, s.hostCommand_reaches _ fun _ => .stop⟩
  | abort => exact ⟨_, rfl, s.hostCommand_reaches _ fun _ => .abort⟩
  | setLine => exact ⟨_, rfl, s.hostCommand_reaches _ setLineWork_acts⟩
  | getLine => exact ⟨_, rfl, s.hostCommand_reaches _ getLineWork_acts⟩
  | setLimits => exact ⟨_, rfl, s.hostCommand_reaches _ setLimitsWork_acts⟩
  | getLimits => exact ⟨_, rfl, s.hostCommand_reaches _ getLimitsWork_acts⟩
  | setStation => exact ⟨_, rfl, s.hostCommand_reaches _ setStationWork_acts⟩
  | getStation => exact ⟨_, rfl, s.hostCommand_reaches _ getStationWork_acts⟩
  | nextChange => exact ⟨_, rfl, s.hostCommand_reaches _ nextChangeWork_acts⟩
  | commandCompletion => exact ⟨_, rfl, s.live_reaches s.completeCommand_agrees.reaches⟩
  | eventsWrite bank value => exact ⟨_, rfl, s.live_reaches (State.AgreesBehindWindow.reaches rfl)⟩
  | enableWrite bank value => exact ⟨_, rfl, s.live_reaches (s.writeEnable_agrees bank value).reaches⟩
  | bufSelectWrite value => exact ⟨_, rfl, s.live_reaches (State.AgreesBehindWindow.reaches rfl)⟩
  | bufOffsetWrite value => exact ⟨_, rfl, s.live_reaches (State.AgreesBehindWindow.reaches rfl)⟩
  | bufDataRead => exact ⟨_, rfl, s.live_reaches s.readBufData_agrees.reaches⟩
  | bufDataWrite value => exact ⟨_, rfl, s.live_reaches (s.writeBufData_agrees value).reaches⟩
  | timeLoRead => exact ⟨_, rfl, s.live_reaches (State.AgreesBehindWindow.reaches rfl)⟩
  | registerWrite offset value => exact ⟨_, rfl, s.live_reaches (s.hostWrite_reaches offset value)⟩
  | resetAssert => exact ⟨_, rfl, (State.Acts.hardReset true).reaches⟩
  | resetRelease => exact ⟨_, rfl, State.AgreesBehindWindow.reaches rfl⟩
  | powerOn => exact ⟨_, rfl, (State.Acts.hardReset _).reaches⟩
  | initialisationEnd => exact ⟨_, rfl, s.live_reaches State.Acts.endInitialisation.reaches⟩
  | characterDelivered d m p st => exact ⟨_, rfl, s.live_reaches (s.deliver_acts d m p st).reaches⟩
  | confirmedStartBit => exact ⟨_, rfl, s.live_reaches s.startCharacter_acts.reaches⟩
  | spaceCharacter => exact ⟨_, rfl, s.live_reaches s.releaseSpace_acts.reaches⟩
  | breakDetected => exact ⟨_, rfl, s.live_reaches State.Acts.detectBreak.reaches⟩
  | breakEnd => exact ⟨_, rfl, s.live_reaches State.Acts.endBreak.reaches⟩
  | telegramGapExpiry => exact ⟨_, rfl, s.live_reaches s.telegramGapEnd_acts.reaches⟩
  | deLeadExpiry => exact ⟨_, rfl, s.live_reaches s.deLeadEnd_acts.reaches⟩
  | deTrailExpiry => exact ⟨_, rfl, s.live_reaches s.deTrailEnd_acts.reaches⟩
  | echoMissing =>
    refine ⟨_, rfl, s.live_reaches ?_⟩
    split
    · rename_i htx
      exact (State.Acts.echoMissing (by simp [htx])).reaches
    all_goals exact State.Acts.nothing.reaches
  | characterSent =>
    refine ⟨_, rfl, s.live_reaches ?_⟩
    split
    · rename_i htx
      exact (State.Acts.characterSent _ (by simp [htx])).reaches
    all_goals exact State.Acts.nothing.reaches
  | answerTimerExpiry => exact ⟨_, rfl, s.live_reaches State.Acts.answerTimerEnd.reaches⟩
  | characterGapExpiry => exact ⟨_, rfl, s.live_reaches State.Acts.characterGapEnd.reaches⟩
  | settleTimerExpiry => exact ⟨_, rfl, s.live_reaches State.Acts.settleEnd.reaches⟩
  | holdoffExpiry => exact ⟨_, rfl, s.live_reaches State.Acts.holdoffEnd.reaches⟩
  | timeCounterTick => exact ⟨_, rfl, s.live_reaches State.Acts.tick.reaches⟩
  | tenMsTick => exact ⟨_, rfl, s.live_reaches State.Acts.tick10.reaches⟩
  | hundredMsTick => exact ⟨_, rfl, s.live_reaches State.Acts.tick100.reaches⟩
  | pollCountdownExpiry a => exact ⟨_, rfl, s.live_reaches (s.pollFallsDue_acts a).reaches⟩
  | probeCountdownExpiry a => exact ⟨_, rfl, s.live_reaches (s.probeFallsDue_acts a).reaches⟩
  | holdEnd => exact ⟨_, rfl, s.live_reaches State.Acts.endHolds.reaches⟩
  | rxdReturnToMark => exact ⟨_, rfl, s.live_reaches s.returnToMark_acts.reaches⟩

/-- Two changes of the host window are one. -/
theorem State.AgreesBehindWindow.trans {s t u : State} (hst : s.AgreesBehindWindow t) (htu : t.AgreesBehindWindow u) :
    s.AgreesBehindWindow u := by
  unfold State.AgreesBehindWindow at *
  rw [hst] at htu
  exact htu

/-- Every step makes one act behind the host window; that a command leaves the waiting queue is not seen there. -/
theorem step_reaches {s t : State} (h : step s = .next t) : s.Reaches t := by
  unfold step at h
  split at h
  · cases h
    exact State.Acts.nothing.reaches
  · rename_i c rest _
    obtain ⟨t₁, hexec, s', t', hfirst, hact, hlast⟩ := exec_reaches c { s with pending := rest }
    obtain rfl := Host.Outcome.next.inj (hexec.symm.trans h)
    exact ⟨s', t', State.AgreesBehindWindow.trans (t := { s with pending := rest }) rfl hfirst, hact, hlast⟩

end Sys2Proof.Machine
end

section
/-! SUPPORT. The Station Table and the settings stay within their ranges: each change of an entry, then each act. -/

namespace Sys2Proof.Machine

/-! ## Entries (R19, R20) -/

/-- An entry whose values lie within their ranges, its fail count fitting its state. -/
def Station.EntryOk (e : Station) : Prop :=
  e.FailCountOk ∧ e.RangesOk

/-- A saturating counter stays below its cap. -/
theorem satInc_le {cap n : Nat} (h : n ≤ cap) : satInc cap n ≤ cap := by
  unfold satInc
  split <;> omega

/-- A saturating counter that has risen is at least 1. -/
theorem one_le_satInc {cap : Nat} (n : Nat) (hcap : 1 ≤ cap) : 1 ≤ satInc cap n := by
  unfold satInc
  split <;> omega

/-- A fail count of 0 fits UNKNOWN, ONLINE and DISABLED (R20). -/
theorem Station.failCountOk_of_zero {e : Station} (hcount : e.failCount = 0) (hs : e.state ≠ .suspect)
    (ho : e.state ≠ .offline) : e.FailCountOk :=
  ⟨fun _ => hcount, fun h => absurd h (not_or.2 ⟨hs, ho⟩)⟩

/-- A fail count of 1..15 fits SUSPECT and OFFLINE (R20). -/
theorem Station.failCountOk_of_pos {e : Station} (hlow : 1 ≤ e.failCount) (hhigh : e.failCount ≤ 15)
    (hstate : e.state = .suspect ∨ e.state = .offline) : e.FailCountOk :=
  ⟨fun h => by rcases hstate with h' | h' <;> simp [h'] at h, fun _ => ⟨hlow, hhigh⟩⟩

/-- A DISABLED entry has fail count 0 (R20). -/
theorem Station.EntryOk.failCount_of_disabled {e : Station} (h : e.EntryOk) (hd : e.state = .disabled) :
    e.failCount = 0 :=
  h.1.1 (.inr (.inr hd))

/-- An entry after reset (R40). -/
theorem Station.EntryOk.afterReset : Station.afterReset.EntryOk := by
  unfold Station.EntryOk
  decide

/-- The table takes a valid answer (R17, R21). -/
theorem Station.EntryOk.takeValid {e : Station} (h : e.EntryOk) (k : AnswerKind) (syncSent : Bool) :
    (e.takeValid k syncSent).EntryOk := by
  have hzero := h.failCount_of_disabled
  obtain ⟨-, hfail, hperiod, hpoll, hprobe, htaken, hrest⟩ := h
  simp only [Station.takeValid, Station.healthyAfter_eq, Station.sequenceAfter_eq]
  have hcount : (if e.state = .disabled then e.failCount else 0) = 0 := by
    split
    · exact hzero ‹_›
    · rfl
  refine ⟨Station.failCountOk_of_zero hcount ?_ ?_, hcount.trans_le (Nat.zero_le _), hperiod, ?_, hprobe,
    satInc_le htaken, hrest⟩ <;> dsimp only
  · split <;> exact nofun
  · split <;> exact nofun
  · split <;> assumption

/-- The table takes a failed attempt (R22, R23). -/
theorem Station.EntryOk.takeFailure {e : Station} (h : e.EntryOk) (threshold : Nat) {probe : Nat}
    (hp : probe ≤ 255) : (e.takeFailure threshold probe).EntryOk := by
  obtain ⟨hfit, hfail, hperiod, hpoll, hprobe, htaken, hfailed, hrest⟩ := h
  have hlow : 1 ≤ satInc 15 e.failCount := one_le_satInc _ (by decide)
  have hhigh : satInc 15 e.failCount ≤ 15 := satInc_le hfail
  by_cases hd : e.state = .disabled
  · rw [Station.takeFailure_of_disabled _ _ hd]
    exact ⟨hfit, hfail, hperiod, hpoll, hprobe, htaken, satInc_le hfailed, hrest⟩
  by_cases ho : e.state = .offline
  · rw [Station.takeFailure_of_offline _ _ ho]
    exact ⟨Station.failCountOk_of_pos hlow hhigh (.inr ho), hhigh, hperiod, hpoll, hprobe, htaken, satInc_le hfailed,
      hrest⟩
  have hcounted := satInc_le hfailed
  rw [Station.takeFailure_of_served _ _ hd ho]
  split
  · exact ⟨Station.failCountOk_of_pos hlow hhigh (.inl rfl), hhigh, hperiod, hpoll, hprobe, htaken, hcounted, hrest⟩
  · exact ⟨Station.failCountOk_of_pos hlow hhigh (.inr rfl), hhigh, hperiod, hpoll, hp, htaken, hcounted, hrest⟩

/-- A duplicate report is counted (R38, R79). -/
theorem Station.EntryOk.countDuplicate {e : Station} (h : e.EntryOk) : e.countDuplicate.EntryOk := by
  obtain ⟨hfit, hfail, hperiod, hpoll, hprobe, htaken, hfailed, hduplicate, hlate⟩ := h
  exact ⟨hfit, hfail, hperiod, hpoll, hprobe, htaken, hfailed, satInc_le hduplicate, hlate⟩

/-- A late character is counted (R38, R98). -/
theorem Station.EntryOk.countLate {e : Station} (h : e.EntryOk) :
    Station.EntryOk { e with lateCharacters := satInc Config.counterCap e.lateCharacters } := by
  obtain ⟨hfit, hfail, hperiod, hpoll, hprobe, htaken, hfailed, hduplicate, hlate⟩ := h
  exact ⟨hfit, hfail, hperiod, hpoll, hprobe, htaken, hfailed, hduplicate, satInc_le hlate⟩

/-- A dispatch loads a countdown (R63). -/
theorem Station.EntryOk.dispatched {e : Station} (h : e.EntryOk) {probe : Nat} (hp : probe ≤ 255) :
    (e.dispatched probe).EntryOk := by
  obtain ⟨hfit, hfail, hperiod, hpoll, hprobe, hrest⟩ := h
  unfold Station.dispatched
  split
  · exact ⟨hfit, hfail, hperiod, hpoll, hp, hrest⟩
  · exact ⟨hfit, hfail, hperiod, hperiod, hprobe, hrest⟩

/-- A 10 ms tick (R71). -/
theorem Station.EntryOk.pollTick {e : Station} (h : e.EntryOk) : e.pollTick.EntryOk := by
  unfold Station.pollTick
  split
  · obtain ⟨hfit, hfail, hperiod, hpoll, hrest⟩ := h
    exact ⟨hfit, hfail, hperiod, (Nat.sub_le _ _).trans hpoll, hrest⟩
  · exact h

/-- A 100 ms tick (R72). -/
theorem Station.EntryOk.probeTick {e : Station} (h : e.EntryOk) : e.probeTick.EntryOk := by
  unfold Station.probeTick
  split
  · obtain ⟨hfit, hfail, hperiod, hpoll, hprobe, hrest⟩ := h
    exact ⟨hfit, hfail, hperiod, hpoll, (Nat.sub_le _ _).trans hprobe, hrest⟩
  · exact h

/-- The RESET command keeps the poll period and a DISABLED state (R41). -/
theorem Station.EntryOk.softReset {e : Station} (h : e.EntryOk) : e.softReset.EntryOk := by
  obtain ⟨-, -, hperiod, -⟩ := h
  refine ⟨Station.failCountOk_of_zero rfl ?_ ?_, Nat.zero_le _, hperiod, hperiod,
    by simp [Station.softReset, Station.afterReset]⟩ <;>
    (dsimp only [Station.softReset]; split <;> exact nofun)

/-! ## SET_STATION (R30 to R34) -/

/-- The reset-counters part (R30). -/
theorem Station.EntryOk.resetCounters {e : Station} (h : e.EntryOk) : e.resetCounters.EntryOk := by
  obtain ⟨hfit, hfail, hperiod, hpoll, hprobe, -⟩ := h
  exact ⟨hfit, hfail, hperiod, hpoll, hprobe, by simp [Station.resetCounters]⟩

/-- The reset-entry part (R31). -/
theorem Station.EntryOk.resetEntry {e : Station} (h : e.EntryOk) : e.resetEntry.EntryOk := by
  obtain ⟨-, -, hrest⟩ := h
  refine ⟨Station.failCountOk_of_zero rfl ?_ ?_, Nat.zero_le _, hrest⟩ <;>
    (dsimp only [Station.resetEntry]; split <;> exact nofun)

/-- The availability part (R32, R33). -/
theorem Station.EntryOk.setAvailability {e : Station} (h : e.EntryOk) (availability : Nat) {period : Nat}
    (hp : period ≤ 255) : (e.setAvailability availability period).EntryOk := by
  have hzero := h.failCount_of_disabled
  unfold Station.setAvailability Station.enable
  split
  · split
    · obtain ⟨-, hfail, hperiod, hpoll, hrest⟩ := h
      exact ⟨Station.failCountOk_of_zero (hzero ‹_›) nofun nofun, hfail, hperiod, hp, hrest⟩
    · exact h
  · obtain ⟨-, -, hrest⟩ := h
    exact ⟨Station.failCountOk_of_zero rfl nofun nofun, Nat.zero_le _, hrest⟩
  · exact h

/-- The poll-period part (R34). -/
theorem Station.EntryOk.setPeriod {e : Station} (h : e.EntryOk) {period : Nat} (hp : period ≤ 255) :
    (e.setPeriod period).EntryOk := by
  obtain ⟨hfit, hfail, -, hpoll, hrest⟩ := h
  refine ⟨hfit, hfail, hp, ?_, hrest⟩
  dsimp only [Station.setPeriod]
  split <;> assumption

/-- An accepted SET_STATION (R29). -/
theorem Station.EntryOk.configure {e : Station} (h : e.EntryOk) (availability : Nat) {period : Nat}
    (resetEntry resetCounters : Bool) (hp : period ≤ 255) :
    (e.configure availability period resetEntry resetCounters).EntryOk := by
  have hcounted : (if resetCounters then e.resetCounters else e).EntryOk := by
    split
    · exact h.resetCounters
    · exact h
  unfold Station.configure
  refine Station.EntryOk.setPeriod (Station.EntryOk.setAvailability ?_ _ hp) hp
  split
  · exact hcounted.resetEntry
  · exact hcounted

end Sys2Proof.Machine
end

section
/-! SUPPORT. What the shared operations leave as it is, for every invariant of the records and settings. -/

namespace Sys2Proof.Machine

/-- The taking of a buffer changes the pool, message memory and the flags. -/
theorem State.takeHead_frame (s : State) (new : Ownership) :
    s.takeHead new = { s with
      freeList := (s.takeHead new).freeList, owners := (s.takeHead new).owners, memory := (s.takeHead new).memory
      events := (s.takeHead new).events } := by
  unfold State.takeHead
  split <;> rfl

/-- A change of ownership changes the pool. -/
theorem State.changeOwner_frame (s : State) (b : Nat) (old new : Ownership) :
    s.changeOwner b old new = { s with
      owners := (s.changeOwner b old new).owners, freeList := (s.changeOwner b old new).freeList } := by
  unfold State.changeOwner
  split <;> rfl

/-- A change of ownership of a buffer that may be absent changes the pool. -/
theorem State.changeOwnerOpt_frame (s : State) (buffer : Option Nat) (old new : Ownership) :
    s.changeOwner? buffer old new = { s with
      owners := (s.changeOwner? buffer old new).owners, freeList := (s.changeOwner? buffer old new).freeList } := by
  cases buffer with
  | none => rfl
  | some b => exact s.changeOwner_frame b old new

/-- The end of a drain is a change of the mode, the phase, its timer, the stall flag and the event flags. -/
theorem State.endDrain_frame (s : State) :
    s.endDrain = { s with
      mode := s.endDrain.mode, phase := s.endDrain.phase, timer := s.endDrain.timer
      stallActive := s.endDrain.stallActive, events := s.endDrain.events } := by
  unfold State.endDrain
  split <;> rfl

/-- A stalled look changes the stall flags and the event flags. -/
theorem State.stalledLook_frame (s : State) :
    s.stalledLook = { s with
      stallActive := s.stalledLook.stallActive, stallReported := s.stalledLook.stallReported
      events := s.stalledLook.events } := by
  unfold State.stalledLook
  split <;> rfl

/-- A payload byte that is stored changes message memory. -/
theorem State.storePayload_frame (s : State) (c : Context) (data : Byte) :
    s.storePayload c data = { s with memory := (s.storePayload c data).memory } := by
  unfold State.storePayload State.writeBuffer
  split
  · rfl
  · split
    · split <;> rfl
    · rfl

/-- A break that cuts an answer short changes the context. -/
theorem State.breakReception_frame (s : State) :
    s.breakReception = { s with context := s.breakReception.context } := by
  unfold State.breakReception
  split
  · rfl
  · split <;> rfl

/-- A character of an answer changes the context, the reception, the phase, its timer and message memory. -/
theorem State.answerCharacter_frame (s : State) (d : Delivered) :
    s.answerCharacter d = { s with
      context := (s.answerCharacter d).context, reception := (s.answerCharacter d).reception
      phase := (s.answerCharacter d).phase, timer := (s.answerCharacter d).timer
      memory := (s.answerCharacter d).memory } := by
  cases hc : s.context with
  | none =>
    have hnothing : s.answerCharacter d = s := by simp only [State.answerCharacter, hc]
    rw [hnothing]
  | some c =>
    cases hv : c.verdict with
    | some v => rw [State.answerCharacter_of_failed d hc (by simp [hv])]; rfl
    | none =>
      cases hx : s.reception.failure c d with
      | some x => rw [State.answerCharacter_of_failure hc hv hx]; rfl
      | none =>
        by_cases hmore : s.reception.taken < 3 ∨ s.reception.taken < s.reception.length + 4
        · rw [State.answerCharacter_of_kept hc hv hx hmore]
          split
          · rw [State.storePayload_frame]; rfl
          · rfl
        · rw [State.answerCharacter_of_checkB hc hv hx (by omega) (by omega)]; rfl

/-- A complete call changes DE, the sender, the context, the phase and its timer. -/
theorem State.completeCall_frame (s : State) :
    s.completeCall = { s with
      de := s.completeCall.de, tx := s.completeCall.tx, context := s.completeCall.context
      phase := s.completeCall.phase, timer := s.completeCall.timer } := by
  cases hc : s.context with
  | none =>
    have hnothing : s.completeCall = s := by simp only [State.completeCall, hc]
    rw [hnothing]
  | some c =>
    by_cases h0 : c.station = 0
    · rw [State.completeCall_of_broadcast hc h0]
    · rw [State.completeCall_of_station hc h0]

/-- The end of a sent character changes what a complete call changes. -/
theorem State.sendNext_frame (s : State) (i : Nat) :
    s.sendNext i = { s with
      de := (s.sendNext i).de, tx := (s.sendNext i).tx, context := (s.sendNext i).context
      phase := (s.sendNext i).phase, timer := (s.sendNext i).timer } := by
  unfold State.sendNext
  split
  · rfl
  · dsimp only
    split
    · rfl
    · split
      · rw [State.completeCall_frame]; rfl
      · rfl

/-- A 10 ms tick changes the 100 ms prescaler, the given ticks and the Station Table. -/
theorem State.tick10_frame (s : State) :
    s.tick10 = { s with
      tick10Given := s.tick10.tick10Given, prescaler100 := s.tick10.prescaler100
      tick100Given := s.tick10.tick100Given, stations := s.tick10.stations } := by
  unfold State.tick10
  split <;> rfl

/-- A 100 ms tick changes the given ticks and the Station Table. -/
theorem State.tick100_frame (s : State) :
    s.tick100 = { s with tick100Given := s.tick100.tick100Given, stations := s.tick100.stations } := by
  unfold State.tick100
  split <;> rfl

end Sys2Proof.Machine
end

section
/-! SUPPORT. Every act keeps the Station Table and the settings within their ranges. -/

namespace Sys2Proof.Machine

/-! ## The table and the settings -/

/-- The table holds 31 entries, each within its ranges (R19, R20). -/
def State.EntriesOk (s : State) : Prop :=
  s.stations.length = 31 ∧ ∀ e ∈ s.stations, e.EntryOk

/-- The settings and the counters of the part lie within their ranges (R61, R70, R108, R109, R148, R151). -/
def State.SettingsOk (s : State) : Prop :=
  s.limits.RangesOk ∧ s.lineConfig.RangesOk ∧ s.consecutive ≤ 15 ∧ (1 ≤ s.pollPointer ∧ s.pollPointer ≤ 31) ∧
  s.strayCharacters ≤ 65535 ∧ s.conflicts ≤ 255 ∧ s.breaks ≤ 255 ∧ s.prescaler10 ≤ 9 ∧ s.prescaler100 ≤ 9 ∧ s.TicksOk

/-- The table and the settings together. -/
def State.TableOk (s : State) : Prop :=
  s.EntriesOk ∧ s.SettingsOk

/-- The two invariants of the model, by entries and settings. -/
theorem State.tableOk_iff (s : State) : s.TableOk ↔ s.StationsOk ∧ s.RangesOk := by
  constructor
  · rintro ⟨⟨hlen, hentries⟩, hlimits, hline, hconsecutive, ⟨hlow, hhigh⟩, hrest⟩
    exact ⟨⟨hlen, fun e he => (hentries e he).1⟩, hlimits, hline, fun e he => (hentries e he).2, hconsecutive, hlow,
      hhigh, hrest⟩
  · rintro ⟨⟨hlen, hfit⟩, hlimits, hline, hranges, hconsecutive, hlow, hhigh, hrest⟩
    exact ⟨⟨hlen, fun e he => ⟨hfit e he, hranges e he⟩⟩, hlimits, hline, hconsecutive, ⟨hlow, hhigh⟩, hrest⟩

/-- The state after reset (R40, R108, R109, R148). -/
theorem State.TableOk.reset : State.reset.TableOk :=
  (State.tableOk_iff _).2 (by decide)

/-! ## The shared operations -/

section Operations

variable {s : State} (h : s.TableOk)
include h

/-- The entry of any address. -/
theorem State.TableOk.station (a : Nat) : (s.station a).EntryOk :=
  State.station_of_forall a h.1.2 .afterReset

/-- The probe interval is a byte (R148). -/
theorem State.TableOk.probeInterval : s.limits.probeInterval ≤ 255 := by
  obtain ⟨-, hlimits, -⟩ := h
  obtain ⟨-, -, -, -, -, hprobe, -⟩ := hlimits
  exact hprobe

/-- A table whose every entry has been changed. -/
theorem State.TableOk.map {f : Station → Station} (hf : ∀ e : Station, e.EntryOk → (f e).EntryOk) :
    State.TableOk { s with stations := s.stations.map f } := by
  obtain ⟨⟨hlen, hentries⟩, hsettings⟩ := h
  refine ⟨⟨by simpa using hlen, fun e he => ?_⟩, hsettings⟩
  obtain ⟨x, hx, rfl⟩ := List.mem_map.1 he
  exact hf x (hentries x hx)

/-- A table with one entry replaced. -/
theorem State.TableOk.setStation (a : Nat) {e : Station} (he : e.EntryOk) : (s.setStation a e).TableOk := by
  obtain ⟨⟨hlen, hentries⟩, hsettings⟩ := h
  rw [State.setStation_eq]
  exact ⟨⟨by simpa using hlen, State.forall_setStation a hentries he⟩, hsettings⟩

/-- The taking of a buffer. -/
theorem State.TableOk.takeHead (new : Ownership) : (s.takeHead new).TableOk := by
  rw [State.takeHead_frame]
  exact h

/-- A change of ownership. -/
theorem State.TableOk.changeOwnerOpt (buffer : Option Nat) (old new : Ownership) :
    (s.changeOwner? buffer old new).TableOk := by
  rw [State.changeOwnerOpt_frame]
  exact h

/-- The end of a drain. -/
theorem State.TableOk.endDrain : s.endDrain.TableOk := by
  rw [State.endDrain_frame]
  exact h

/-- IDLE is entered. -/
theorem State.TableOk.enterIdle : s.enterIdle.TableOk := h

/-- The mode becomes STOPPED (R142). -/
theorem State.TableOk.becomeStopped : s.becomeStopped.TableOk := h

/-- HOLDOFF is entered (R105). -/
theorem State.TableOk.enterHoldoff : s.enterHoldoff.TableOk := h

/-- The clearing of a synced flag (R18). -/
theorem State.TableOk.clearSynced (a : Nat) : (s.clearSynced a).TableOk :=
  h.setStation a (h.station a)

/-- The closing of a transaction (R102). -/
theorem State.TableOk.close (c : Context) (record : Option ResultRecord) (clearSync : Bool) :
    (s.close c record clearSync).TableOk := by
  have hposted : (s.settleSlot record).TableOk := by cases record <;> exact h
  have hfreed : ∀ attached : Bool, ((s.settleSlot record).disposeBuffers c attached).TableOk := fun attached =>
    (hposted.changeOwnerOpt ..).changeOwnerOpt ..
  cases clearSync with
  | false => exact hfreed _
  | true => exact (hfreed _).clearSynced c.station

/-- The early closing of a transaction. -/
theorem State.TableOk.closeEarly (c : Context) (outcome : ResultOutcome) (cancelRequested taken : Bool) :
    (s.closeEarly c outcome cancelRequested taken).TableOk := by
  obtain ⟨record, clear, heq, -⟩ := s.closeEarly_eq_close c outcome cancelRequested taken
  rw [heq]
  exact h.close ..

/-- A request goes onto the line, and the consecutive-request count rises (R61, R62). -/
theorem State.TableOk.flyRequest (c : Context) {n : Nat} (hn : n ≤ 15) :
    State.TableOk
      (State.enterGap { s with
        context := some c, consecutive := satInc Config.consecutiveCap n, stallReported := false }) := by
  obtain ⟨hentries, hlimits, hline, -, hrest⟩ := h
  exact ⟨hentries, hlimits, hline, satInc_le hn, hrest⟩

/-- The dispatch of a request (R62). -/
theorem State.TableOk.dispatchRequest (r : Request) : (s.dispatchRequest r).TableOk := by
  obtain ⟨-, -, -, hconsecutive, -⟩ := id h
  have hremoved : State.TableOk { s.removeRequest r.ticket with reserved := true } := h
  have htaken : State.TableOk
      (if r.needsBuffer then State.takeHead { s.removeRequest r.ticket with reserved := true } .line
        else { s.removeRequest r.ticket with reserved := true }) := by
    split
    · exact hremoved.takeHead _
    · exact hremoved
  exact (htaken.changeOwnerOpt r.outBuffer .queued .line).flyRequest _ hconsecutive

/-- The dispatch of a poll or a probe (R61, R63, R70). -/
theorem State.TableOk.dispatchPoll {a : Nat} (hlow : 1 ≤ a) (hhigh : a ≤ 31) : (s.dispatchPoll a).TableOk := by
  have htaken : (({ s with reserved := true } : State).takeHead .line).TableOk :=
    State.TableOk.takeHead (s := { s with reserved := true }) h _
  obtain ⟨hentries, hlimits, hline, -, -, hrest⟩ :=
    htaken.setStation a ((h.station a).dispatched h.probeInterval)
  exact ⟨hentries, hlimits, hline, Nat.zero_le _, ⟨hlow, hhigh⟩, hrest⟩

/-- The look of the Dispatcher (R57). -/
theorem State.TableOk.look : s.look.TableOk := by
  refine State.look_keeps h (fun _ hx => hx) (fun x hx _ => ?_) (fun x r hx _ _ _ _ _ => ?_)
    (fun x r hx _ _ _ _ _ => hx.dispatchRequest r) (fun x a hx _ _ _ _ hlow hhigh => hx.dispatchPoll hlow hhigh)
  · rw [State.stalledLook_frame]
    exact hx
  · exact State.TableOk.changeOwnerOpt (s := x.removeRequest r.ticket) hx ..

/-- The entry that a verdict leaves (R17, R22). -/
theorem State.TableOk.entryAfter (c : Context) (v : Verdict) : (s.entryAfter c v).EntryOk := by
  unfold State.entryAfter
  split
  · exact (h.station _).takeValid _ _
  all_goals exact (h.station _).takeFailure _ h.probeInterval

/-- The decision on a request (R100). -/
theorem State.TableOk.decideRequest (c : Context) (v : Verdict) (lost : Bool) :
    (s.decideRequest c v lost).TableOk := by
  rcases s.decideRequest_cases c v lost with ⟨r, heq⟩ | heq | ⟨-, heq⟩ <;> rw [heq]
  · exact h.close ..
  · exact h
  · exact (h.changeOwnerOpt c.outBuffer .line .queued).changeOwnerOpt c.answerBuffer .line .free

/-- The decision on a poll or a probe (R77 to R79). -/
theorem State.TableOk.decidePoll (c : Context) (v : Verdict) : (s.decidePoll c v).TableOk := by
  have hentry := h.station c.station
  unfold State.decidePoll State.judgeReport
  split
  · rename_i ack _
    have hnew : Station.EntryOk { s.station c.station with lastReport := ack } := hentry
    dsimp only
    split
    · exact (h.setStation _ hnew).close ..
    · exact (h.setStation _ hentry.countDuplicate).close ..
  all_goals exact h.close ..

/-- A verdict takes effect (R99). -/
theorem State.TableOk.takeVerdict : s.takeVerdict.TableOk := by
  rcases s.takeVerdict_cases with heq | ⟨c, -, ⟨-, r, heq⟩ | ⟨v, -, -, ⟨-, lost, heq⟩ | ⟨-, heq⟩⟩⟩ <;> rw [heq]
  · exact h
  · exact h.close ..
  · exact (h.setStation _ (h.entryAfter c v)).decideRequest ..
  · exact (h.setStation _ (h.entryAfter c v)).decidePoll ..

/-- A collision (R91). -/
theorem State.TableOk.collide : s.collide.TableOk := by
  obtain ⟨hentries, hlimits, hline, hconsecutive, hpointer, hstray, hconflicts, hrest⟩ := id h
  unfold State.collide
  split
  · exact h
  · dsimp only
    split
    · refine State.TableOk.endDrain (State.TableOk.closeEarly ?_ ..)
      exact ⟨hentries, hlimits, hline, hconsecutive, hpointer, hstray, satInc_le hconflicts, hrest⟩
    · split
      · refine State.TableOk.endDrain (State.TableOk.closeEarly ?_ ..)
        exact h
      · exact h

/-- The first start bit of a call (R16). -/
theorem State.TableOk.beginCall : s.beginCall.TableOk := by
  unfold State.beginCall
  split
  · exact h
  · dsimp only
    split
    · exact h.setStation _ (h.station _)
    · exact h

/-! ## Characters -/

/-- A stray character is counted (R108). -/
theorem State.TableOk.countStray : s.countStray.TableOk := by
  obtain ⟨hentries, hlimits, hline, hconsecutive, hpointer, hstray, hrest⟩ := h
  exact ⟨hentries, hlimits, hline, hconsecutive, hpointer, satInc_le hstray, hrest⟩

/-- A conflict is counted (R108). -/
theorem State.TableOk.countConflict : s.countConflict.TableOk := by
  obtain ⟨hentries, hlimits, hline, hconsecutive, hpointer, hstray, hconflicts, hrest⟩ := h
  exact ⟨hentries, hlimits, hline, hconsecutive, hpointer, hstray, satInc_le hconflicts, hrest⟩

/-- A character that was not asked for (R104). -/
theorem State.TableOk.unaskedCharacter (d : Delivered) : (s.unaskedCharacter d).TableOk := by
  unfold State.unaskedCharacter State.reloadQuiet
  split
  · exact h.countConflict
  · split <;> exact h.countStray

/-- A late character (R98). -/
theorem State.TableOk.lateCharacter : s.lateCharacter.TableOk := by
  unfold State.lateCharacter
  split
  · exact h
  · dsimp only
    split
    · exact h.countStray
    · exact h.setStation _ (h.station _).countLate

/-- The beginning of an answer (R94). -/
theorem State.TableOk.beginReception : s.beginReception.TableOk := by
  rw [State.beginReception_eq]
  exact h

/-- A character of an answer (R94). -/
theorem State.TableOk.answerCharacter (d : Delivered) : (s.answerCharacter d).TableOk := by
  rw [State.answerCharacter_frame]
  exact h

/-- A delivered character (R4). -/
theorem State.TableOk.takeCharacter (d : Delivered) : (s.takeCharacter d).TableOk := by
  unfold State.takeCharacter State.echoCheck State.stoppedCharacter
  split
  · split
    · split
      · exact h
      · exact h.collide
    all_goals exact h.collide
  · split
    · split
      · exact h.countConflict
      · exact h.countStray
    · split
      · exact h.unaskedCharacter d
      · exact h.unaskedCharacter d
      · exact h.unaskedCharacter d
      · exact h.beginReception.answerCharacter d
      · exact h.answerCharacter d
      · exact h.lateCharacter
      · exact h

/-- A break is detected (R106, R107). -/
theorem State.TableOk.detectBreak : s.detectBreak.TableOk := by
  unfold State.detectBreak
  split
  · exact h
  · obtain ⟨hentries, hlimits, hline, hconsecutive, hpointer, hstray, hconflicts, hbreaks, hrest⟩ := h
    have hbroken : State.TableOk (State.raise { s with
        breaks := satInc Config.lineCounterCap s.breaks
        receiver := { inCharacter := none, heldSpace := false, awaitMark := true, lineInBreak := true } } .lineBreak) :=
      ⟨hentries, hlimits, hline, hconsecutive, hpointer, hstray, hconflicts, satInc_le hbreaks, hrest⟩
    dsimp only
    split
    · exact hbroken.collide
    · rw [State.breakReception_frame]
      exact hbroken.beginReception
    · rw [State.breakReception_frame]
      exact hbroken
    all_goals exact hbroken

/-- A break ends (R107). -/
theorem State.TableOk.endBreak : s.endBreak.TableOk := by
  have hready : State.TableOk { s with receiver := Receiver.ready } := h
  have hjudged := hready.takeVerdict.enterHoldoff
  unfold State.endBreak
  split
  · dsimp only
    split
    · exact hready
    · split
      · exact hready
      · exact hready
      · exact hready
      · exact hjudged.endDrain
      · exact hjudged.endDrain
      · exact hready.collide
      · exact hready
  · exact h

/-! ## Timers and ticks -/

/-- The settle timer (R99). -/
theorem State.TableOk.settleEnd : s.settleEnd.TableOk := by
  unfold State.settleEnd
  split
  · dsimp only
    split
    · exact h.takeVerdict
    · exact h.takeVerdict.enterIdle.endDrain.look
  · exact h

/-- The holdoff timer (R105). -/
theorem State.TableOk.holdoffEnd : s.holdoffEnd.TableOk := by
  unfold State.holdoffEnd
  split
  · split
    · exact h
    · exact h.enterIdle.look
  · exact h

/-- A 10 ms tick (R71, R151): the 100 ms prescaler returns to 0 where it gives a tick. -/
theorem State.TableOk.tick10 : s.tick10.TableOk := by
  cases hgiven : s.tick10Given with
  | false =>
    rw [State.tick10_of_not_given hgiven]
    exact h
  | true =>
    have hpolled := h.map fun _ => Station.EntryOk.pollTick
    obtain ⟨hentries, hlimits, hline, hconsecutive, hpointer, hstray, hconflicts, hbreaks, hp10, -, ht10, ht100⟩ := h
    obtain ⟨hle, hreturns⟩ := prescale_spec s.prescaler100
    have hnone : s.tick100Given = false := by
      by_contra hno
      simp [hgiven] at ht100
      exact hno ht100
    unfold State.tick10
    rw [if_pos hgiven]
    refine ⟨?_, hlimits, hline, hconsecutive, hpointer, hstray, hconflicts, hbreaks, hp10, hle, nofun, fun ht => ?_⟩
    · dsimp only [State.EntriesOk]
      split
      · exact hpolled.1
      · exact hentries
    · rw [hnone, Bool.false_or] at ht
      exact ⟨ht10 hgiven, hreturns.1 ht, rfl⟩

/-- A 100 ms tick (R72, R151). -/
theorem State.TableOk.tick100 : s.tick100.TableOk := by
  cases hgiven : s.tick100Given with
  | false =>
    rw [State.tick100_of_not_given hgiven]
    exact h
  | true =>
    have hprobed := h.map fun _ => Station.EntryOk.probeTick
    obtain ⟨hentries, hlimits, hline, hconsecutive, hpointer, hstray, hconflicts, hbreaks, hp10, hp100, ht10, -⟩ := h
    unfold State.tick100
    rw [if_pos hgiven]
    refine ⟨?_, hlimits, hline, hconsecutive, hpointer, hstray, hconflicts, hbreaks, hp10, hp100, ht10, nofun⟩
    dsimp only [State.EntriesOk]
    split
    · exact hprobed.1
    · exact hentries

/-- A rise of the time counter with no tick given: the 10 ms prescaler gives one where it returns to 0 (R151). -/
theorem State.TableOk.riseTime (hnone : s.tick100Given = false) : s.riseTime.TableOk := by
  obtain ⟨hentries, hlimits, hline, hconsecutive, hpointer, hstray, hconflicts, hbreaks, -, hp100, -⟩ := h
  obtain ⟨hle, hreturns⟩ := prescale_spec s.prescaler10
  exact ⟨hentries, hlimits, hline, hconsecutive, hpointer, hstray, hconflicts, hbreaks, hle, hp100, hreturns.1,
    fun hgiven => absurd (hnone.symm.trans hgiven) nofun⟩

/-- The tick of the time counter: the ticks given before have fallen by then (R151). -/
theorem State.TableOk.tick : s.tick.TableOk :=
  h.tick10.tick100.riseTime s.takeGivenTicks_none_given.2

/-! ## Settings and resets -/

/-- SET_LINE (R110). -/
theorem State.TableOk.setLine {a : Args} (ha : lineArgumentsOk a = true) :
    State.TableOk { s with lineConfig := LineConfig.ofArgs a } := by
  obtain ⟨hentries, hlimits, -, hrest⟩ := h
  refine ⟨hentries, hlimits, ?_, hrest⟩
  simp only [lineArgumentsOk, Bool.and_eq_true, decide_eq_true_eq] at ha
  simp only [LineConfig.RangesOk, LineConfig.ofArgs]
  omega

/-- SET_LIMITS (R148). -/
theorem State.TableOk.setLimits {a : Args} (ha : limitArgumentsOk a = true) :
    State.TableOk { s with limits := Limits.ofArgs a } := by
  obtain ⟨hentries, -, hrest⟩ := h
  refine ⟨hentries, ?_, hrest⟩
  simp only [limitArgumentsOk, Bool.and_eq_true, decide_eq_true_eq] at ha
  simp only [Limits.RangesOk, Limits.ofArgs]
  omega

/-- GET_LINE clears the counters (R111). -/
theorem State.TableOk.clearCounters :
    State.TableOk { s with strayCharacters := 0, conflicts := 0, breaks := 0 } := by
  obtain ⟨hentries, hlimits, hline, hconsecutive, hpointer, -, -, -, hrest⟩ := h
  exact ⟨hentries, hlimits, hline, hconsecutive, hpointer, Nat.zero_le _, Nat.zero_le _, Nat.zero_le _, hrest⟩

/-- SET_STATION (R29). -/
theorem State.TableOk.configuredEntry (a : Args) : (s.configuredEntry a).EntryOk :=
  (h.station _).configure _ _ _ (by omega)

/-- ABORT (R146). -/
theorem State.TableOk.abort : (abortWork s).state.TableOk := by
  cases hc : s.context with
  | none =>
    rw [abortWork_of_idle hc]
    exact State.TableOk.becomeStopped (s := s.releaseLine) h
  | some c =>
    have hclosed : (s.releaseLine.closeEarly c .aborted c.cancelPending false).TableOk :=
      State.TableOk.closeEarly (s := s.releaseLine) h ..
    rw [abortWork_of_flight hc]
    exact hclosed.becomeStopped

/-- STOP (R144). -/
theorem State.TableOk.stopLine : s.stopLine.TableOk := by
  unfold State.stopLine
  split
  · exact h
  · split <;> exact h
  · split <;> exact h

/-- The reset step of the RESET command (R41, R154). -/
theorem State.TableOk.softReset : s.softReset.TableOk := by
  obtain ⟨hentries, -⟩ := h.map fun _ => Station.EntryOk.softReset
  obtain ⟨-, hlimits, hline, -⟩ := h
  obtain ⟨-, -, -, hrest⟩ := State.TableOk.reset
  exact ⟨hentries, hlimits, hline, hrest⟩

/-- Every act. -/
theorem State.TableOk.acts {t : State} (hact : s.Acts t) : t.TableOk := by
  cases hact with
  | nothing => exact h
  | allocate => exact h.takeHead _
  | release b hb => exact (h.changeOwnerOpt (some b) .host .free).look
  | submit a ha => exact State.TableOk.look (h.changeOwnerOpt _ _ _)
  | cancelQueued r hr =>
    exact (State.TableOk.changeOwnerOpt (s := s.removeRequest r.ticket) h _ _ _).look
  | cancelWaiting c hc hphase =>
    have hclosed := h.closeEarly c .cancelled false true
    unfold State.cancelWaiting
    dsimp only
    split
    · exact hclosed.enterIdle.endDrain.look
    · exact hclosed.endDrain
  | cancelFlying c hc hphase => exact h
  | take r rest shown hr =>
    exact (State.TableOk.changeOwnerOpt (s := { s with results := rest, taken := shown }) h _ _ _).look
  | start hmode => exact State.TableOk.look h
  | stop => exact h.stopLine
  | abort => exact h.abort
  | setLine a ha => exact h.setLine ha
  | clearCounters => exact h.clearCounters
  | setLimits a ha => exact h.setLimits ha
  | configure a => exact h.setStation _ (h.configuredEntry a)
  | configureAndLook a => exact (h.setStation _ (h.configuredEntry a)).look
  | clearChanged a => exact h.setStation a (h.station a)
  | softReset => exact h.softReset
  | hardReset held => exact State.TableOk.reset
  | endInitialisation =>
    unfold State.endInitialisation
    split <;> exact h
  | receive r => exact h
  | beginReception r hphase => exact State.TableOk.beginReception (s := { s with receiver := r }) h
  | takeCharacter r d => exact State.TableOk.takeCharacter (s := { s with receiver := r }) h d
  | detectBreak => exact h.detectBreak
  | endBreak => exact h.endBreak
  | echoMissing htx => exact h.collide
  | characterSent i htx =>
    rw [State.sendNext_frame]
    exact h
  | telegramGapEnd hphase =>
    unfold State.enterCalling
    dsimp only
    split
    · exact State.TableOk.beginCall h
    · exact h
  | deLeadEnd => exact h.beginCall
  | deTrailEnd htx =>
    rw [State.completeCall_frame]
    exact h
  | answerTimerEnd =>
    unfold State.answerTimerEnd
    split <;> exact h
  | characterGapEnd =>
    unfold State.characterGapEnd
    split <;> exact h
  | settleEnd => exact h.settleEnd
  | holdoffEnd => exact h.holdoffEnd
  | tick => exact h.tick
  | tick10 => exact h.tick10
  | tick100 => exact h.tick100
  | look => exact h.look
  | endHolds =>
    unfold State.endHolds
    split
    · exact State.TableOk.look h
    · exact h

end Operations

/-- A change of the host window. -/
theorem State.TableOk.of_agrees (s t : State) (hst : s.AgreesBehindWindow t) (h : s.TableOk) : t.TableOk := by
  rw [hst]
  exact h

/-- Every step keeps the Station Table and the settings within their ranges. -/
theorem step_keeps_tableOk {s t : State} (h : s.TableOk) (hstep : step s = .next t) : t.TableOk :=
  (step_reaches hstep).keeps h State.TableOk.of_agrees State.TableOk.of_agrees fun _ _ hact hs => hs.acts hact

end Sys2Proof.Machine
end

section
/-! SUPPORT. The fields of the records, of the context and of the answer stay within their ranges: the records made by
each operation, the transaction in flight, then every act while the line's own invariant holds. -/

namespace Sys2Proof.Machine

/-! ## The invariant in its two parts -/

/-- The queue, the tickets, the free list, the result records and the answer being received lie within their ranges
(R42, R44, R94, R116, R127). -/
def State.StoresOk (s : State) : Prop :=
  (1 ≤ s.ticketCounter ∧ s.ticketCounter ≤ 255) ∧ (∀ b ∈ s.freeList, b ≤ 63) ∧ (∀ r ∈ s.queue, r.RangesOk) ∧
  (∀ r ∈ s.results, r.RangesOk) ∧ s.reception.length ≤ 32 ∧ s.reception.taken ≤ s.reception.length + 4

/-- The context lies within its ranges, and an attempt remains where a call is still to be sent (R84, R88). -/
def State.FlightOk (s : State) : Prop :=
  (∀ c ∈ s.context, c.RangesOk) ∧
  (s.phase = .gap ∨ s.phase = .calling ∨ s.phase = .holdoff → ∀ c ∈ s.context, c.attempts ≤ c.retryLimit)

/-- The context, if there is one, lies within its ranges, and an attempt remains, whatever the phase. -/
def State.ResendOk (s : State) : Prop :=
  ∀ c ∈ s.context, c.RangesOk ∧ c.attempts ≤ c.retryLimit

/-- The model's invariant is its two parts. -/
theorem State.recordsOk_iff (s : State) : s.RecordsOk ↔ s.StoresOk ∧ s.FlightOk := by
  constructor
  · rintro ⟨hlow, hhigh, hfree, hqueue, hcontext, hresults, hattempts, hanswer⟩
    exact ⟨⟨⟨hlow, hhigh⟩, hfree, hqueue, hresults, hanswer⟩, hcontext, hattempts⟩
  · rintro ⟨⟨⟨hlow, hhigh⟩, hfree, hqueue, hresults, hanswer⟩, hcontext, hattempts⟩
    exact ⟨hlow, hhigh, hfree, hqueue, hcontext, hresults, hattempts, hanswer⟩

/-- The state after reset (R44, R124, R141). -/
theorem State.recordsOk_reset : State.reset.RecordsOk := by
  decide

/-! ## The transaction in flight -/

/-- With nothing in flight there is nothing to bound. -/
theorem State.ResendOk.of_none {s : State} (h : s.context = none) : s.ResendOk := by
  rintro c hc
  rw [h] at hc
  cases hc

/-- A transaction with an attempt left is in its ranges in every phase. -/
theorem State.ResendOk.flight {s : State} (h : s.ResendOk) : s.FlightOk :=
  ⟨fun c hc => (h c hc).1, fun _ c hc => (h c hc).2⟩

/-- Where a call is still to be sent, an attempt remains. -/
theorem State.FlightOk.resend {s : State} (h : s.FlightOk)
    (hphase : s.phase = .gap ∨ s.phase = .calling ∨ s.phase = .holdoff) : s.ResendOk :=
  fun c hc => ⟨h.1 c hc, h.2 hphase c hc⟩

/-- In the other phases the ranges of the context are enough. -/
theorem State.FlightOk.of_ranges {s : State} (h : ∀ c ∈ s.context, c.RangesOk)
    (hphase : s.phase = .idle ∨ s.phase = .waiting ∨ s.phase = .receiving ∨ s.phase = .settling) : s.FlightOk :=
  ⟨h, fun hsend => by rcases hphase with hp | hp | hp | hp <;> simp [hp] at hsend⟩

/-- A change of the context that leaves its attempts. -/
theorem State.FlightOk.replace {s : State} {c c' : Context} (h : s.FlightOk) (hc : s.context = some c)
    (hranges : c'.RangesOk) (hattempts : c'.attempts = c.attempts) (hlimit : c'.retryLimit = c.retryLimit) :
    State.FlightOk { s with context := some c' } := by
  refine ⟨?_, fun hphase => ?_⟩ <;> rintro x ⟨⟩
  · exact hranges
  · rw [hattempts, hlimit]
    exact h.2 hphase c hc

/-! ## Contexts and the records made from them -/

/-- A context that may end: within its ranges, but for a fourth collision. -/
def Context.EndsOk (c : Context) : Prop :=
  Context.RangesOk { c with collisions := 0 } ∧ c.collisions ≤ 4

/-- A context within its ranges may end. -/
theorem Context.RangesOk.ends {c : Context} (h : c.RangesOk) : c.EndsOk := by
  obtain ⟨hticket, horigin, hstation, hpoll, hlimit, hattempts, hcollisions, hrest⟩ := h
  exact ⟨⟨hticket, horigin, hstation, hpoll, hlimit, hattempts, Nat.zero_le _, hrest⟩, by omega⟩

/-- One collision more may be the fourth, which ends the transaction (R91). -/
theorem Context.RangesOk.collided {c : Context} (h : c.RangesOk) :
    Context.EndsOk { c with collisions := c.collisions + 1 } := by
  obtain ⟨hticket, horigin, hstation, hpoll, hlimit, hattempts, hcollisions, hrest⟩ := h
  exact ⟨⟨hticket, horigin, hstation, hpoll, hlimit, hattempts, Nat.zero_le _, hrest⟩, Nat.succ_le_succ hcollisions⟩

/-- The record of a request (R103). -/
theorem Context.EndsOk.record {c : Context} (h : c.EndsOk) (ho : c.origin = .request) (outcome : ResultOutcome) :
    (c.record outcome).RangesOk := by
  obtain ⟨⟨hticket, horigin, hstation, -, hlimit, hattempts, -⟩, hcollisions⟩ := h
  dsimp only at hticket horigin hstation hlimit hattempts
  exact ⟨hticket, iff_of_true rfl (horigin.1 ho), hstation, show c.attempts ≤ 8 by omega, hcollisions, Nat.zero_le _,
    nofun⟩

/-- A verdict within its range is recorded (R93, R95). -/
theorem Context.RangesOk.judge {c : Context} (h : c.RangesOk) {v : Verdict} (hv : v.length ≤ 32) :
    (c.judge v).RangesOk := by
  obtain ⟨hticket, horigin, hstation, hpoll, hlimit, hattempts, hcollisions, hlength, hout, hanswer, -⟩ := h
  refine ⟨hticket, horigin, hstation, hpoll, hlimit, hattempts, hcollisions, hlength, hout, hanswer, ?_⟩
  rintro x ⟨⟩
  exact hv

/-- A failed attempt (R94). -/
theorem Context.RangesOk.fail {c : Context} (h : c.RangesOk) (d : Detail) : (c.fail d).RangesOk :=
  h.judge (v := .badAnswer d) (Nat.zero_le _)

/-- An attempt that is made again has no verdict (R101). -/
theorem Context.RangesOk.retry {c : Context} (h : c.RangesOk) : Context.RangesOk { c with verdict := none } := by
  obtain ⟨hticket, horigin, hstation, hpoll, hlimit, hattempts, hcollisions, hlength, hout, hanswer, -⟩ := h
  exact ⟨hticket, horigin, hstation, hpoll, hlimit, hattempts, hcollisions, hlength, hout, hanswer, nofun⟩

/-! ## The answer being received (R94, R95) -/

/-- A character that has passed its tests leaves the answer within its ranges. -/
theorem Reception.keep_ranges {r : Reception} {c : Context} {d : Byte} (hlength : r.length ≤ 32)
    (htaken : r.taken ≤ r.length + 4) (htest : r.test c d = none)
    (hmore : r.taken < 3 ∨ r.taken < r.length + 4) :
    (r.keep d).length ≤ 32 ∧ (r.keep d).taken ≤ (r.keep d).length + 4 := by
  unfold Reception.keep
  dsimp only
  split
  · exact ⟨hlength, show 1 ≤ r.length + 4 by omega⟩
  · exact ⟨hlength, show r.taken + 1 ≤ r.length + 4 by omega⟩
  · rename_i h2
    rw [Reception.test_of_length c d h2] at htest
    have hd : d.toNat ≤ 32 := by
      by_contra hlong
      simp [Nat.not_le.1 hlong] at htest
    exact ⟨hd, show r.taken + 1 ≤ d.toNat + 4 by omega⟩
  · split <;> exact ⟨hlength, show r.taken + 1 ≤ r.length + 4 by omega⟩

/-- The length of a judged answer is the one that it gave (R95). -/
theorem Reception.close_length_le (r : Reception) (call : CallKind) (b : Byte) :
    (r.close call b).length ≤ r.length := by
  unfold Reception.close
  split
  · exact Nat.zero_le _
  · split
    · exact Nat.zero_le _
    · split
      · exact Nat.zero_le _
      · split
        · exact Nat.zero_le _
        · split
          · exact Nat.zero_le _
          · exact Nat.le_refl _

/-! ## Tickets (R44) -/

/-- The ticket after a ticket lies in 1..255. -/
theorem nextTicket_range (t : Nat) : 1 ≤ nextTicket t ∧ nextTicket t ≤ 255 := by
  unfold nextTicket
  split <;> omega

/-- The ticket of a SUBMIT lies in 1..255. -/
theorem State.freeTicket_range (s : State) (fuel : Nat) {t : Nat} (ht : 1 ≤ t ∧ t ≤ 255) :
    1 ≤ s.freeTicket fuel t ∧ s.freeTicket fuel t ≤ 255 := by
  induction fuel generalizing t with
  | zero => exact ht
  | succ n ih =>
    unfold State.freeTicket
    split
    · exact ih (nextTicket_range t)
    · exact ht

/-- The out buffer that SUBMIT's arguments name (R45, R46). -/
theorem bufferOfArg_range {a : Args} (ha : submitArgumentsOk a = true) : ∀ b ∈ bufferOfArg a.arg2, b ≤ 63 := by
  simp only [submitArgumentsOk, Bool.and_eq_true, Bool.or_eq_true, decide_eq_true_eq, beq_iff_eq] at ha
  obtain ⟨⟨⟨⟨-, hbuffer⟩, -⟩, -⟩, -⟩ := ha
  unfold bufferOfArg
  split
  · exact nofun
  · rintro b ⟨⟩
    have := hbuffer.resolve_right ‹_›
    omega

/-- The record of an accepted SUBMIT (R46, R48). -/
theorem submitRecord_ranges {a : Args} {t : Nat} (ha : submitArgumentsOk a = true) (ht : 1 ≤ t ∧ t ≤ 255) :
    (submitRecord a t).RangesOk := by
  have hbuffer := bufferOfArg_range ha
  simp only [submitArgumentsOk, Bool.and_eq_true, decide_eq_true_eq] at ha
  obtain ⟨⟨⟨⟨⟨⟨⟨⟨⟨⟨hstation, -⟩, -⟩, -⟩, hlength⟩, hlimit⟩, -⟩, -⟩, -⟩, -⟩, -⟩ := ha
  exact ⟨ht.1, ht.2, hstation, hlimit, Nat.zero_le _, hlength, hbuffer⟩

/-! ## The shared operations -/

/-- A change of ownership puts no other buffer into the free list (R114). -/
theorem State.mem_changeOwnerOpt_freeList {s : State} {buffer : Option Nat} {old new : Ownership} {x : Nat}
    (hx : x ∈ (s.changeOwner? buffer old new).freeList) : x ∈ s.freeList ∨ x ∈ buffer := by
  unfold State.changeOwner? State.changeOwner at hx
  split at hx
  · rename_i b
    split at hx
    · dsimp only at hx
      split at hx
      · rcases List.mem_append.1 hx with h | h
        · exact .inl h
        · exact .inr (by simpa using (List.mem_singleton.1 h).symm)
      · exact .inl hx
    · exact .inl hx
  · exact .inl hx

/-- The taking of a buffer leaves a part of the free list (R116). -/
theorem State.mem_takeHead_freeList {s : State} {new : Ownership} {x : Nat} (hx : x ∈ (s.takeHead new).freeList) :
    x ∈ s.freeList := by
  unfold State.takeHead at hx
  split at hx
  · exact hx
  · rename_i hfree
    rw [hfree]
    exact List.mem_cons_of_mem _ hx

section Stores

variable {s : State} (h : s.StoresOk)
include h

/-- A change of ownership. -/
theorem State.StoresOk.changeOwnerOpt {buffer : Option Nat} (hbuffer : ∀ b ∈ buffer, b ≤ 63) (old new : Ownership) :
    (s.changeOwner? buffer old new).StoresOk := by
  have hfree : ∀ b ∈ (s.changeOwner? buffer old new).freeList, b ≤ 63 := fun b hb =>
    (State.mem_changeOwnerOpt_freeList hb).elim (h.2.1 b) (hbuffer b)
  obtain ⟨htickets, -, hrest⟩ := h
  rw [State.changeOwnerOpt_frame]
  exact ⟨htickets, hfree, hrest⟩

/-- The taking of a buffer. -/
theorem State.StoresOk.takeHead (new : Ownership) : (s.takeHead new).StoresOk := by
  have hfree : ∀ b ∈ (s.takeHead new).freeList, b ≤ 63 := fun b hb => h.2.1 b (State.mem_takeHead_freeList hb)
  obtain ⟨htickets, -, hrest⟩ := h
  rw [State.takeHead_frame]
  exact ⟨htickets, hfree, hrest⟩

/-- The head of the free list is a buffer. -/
theorem State.StoresOk.head : ∀ b ∈ s.freeList.head?, b ≤ 63 :=
  fun b hb => h.2.1 b (List.mem_of_mem_head? hb)

/-- A change of the Station Table. -/
theorem State.StoresOk.setStation (a : Nat) (e : Station) : (s.setStation a e).StoresOk := by
  rw [State.setStation_eq]
  exact h

/-- The end of a drain. -/
theorem State.StoresOk.endDrain : s.endDrain.StoresOk := by
  rw [State.endDrain_frame]
  exact h

/-- The removal of a record from the queue (R43). -/
theorem State.StoresOk.removeRequest (t : Nat) : (s.removeRequest t).StoresOk := by
  obtain ⟨htickets, hfree, hqueue, hrest⟩ := h
  exact ⟨htickets, hfree, fun r hr => hqueue r ((s.removeRequest_queue_sublist t).subset hr), hrest⟩

/-- The posting of a record (R132). -/
theorem State.StoresOk.post {r : ResultRecord} (hr : r.RangesOk) : (s.post r).StoresOk := by
  obtain ⟨htickets, hfree, hqueue, hresults, hrest⟩ := h
  refine ⟨htickets, hfree, hqueue, fun x hx => ?_, hrest⟩
  rcases List.mem_append.1 hx with hx | hx
  · exact hresults x hx
  · exact List.mem_singleton.1 hx ▸ hr

/-- The closing of a transaction (R102). -/
theorem State.StoresOk.close {c : Context} (hc : c.EndsOk) {record : Option ResultRecord}
    (hrecord : ∀ r ∈ record, r.RangesOk) (clearSync : Bool) : (s.close c record clearSync).StoresOk := by
  obtain ⟨⟨-, -, -, -, -, -, -, -, hout, hanswer, -⟩, -⟩ := hc
  have hposted : (s.settleSlot record).StoresOk := by
    cases record with
    | none => exact h
    | some r => exact State.StoresOk.post (s := { s with reserved := false }) h (hrecord r rfl)
  have hfreed : ∀ attached : Bool, ((s.settleSlot record).disposeBuffers c attached).StoresOk := fun attached =>
    (hposted.changeOwnerOpt hout ..).changeOwnerOpt hanswer ..
  cases clearSync with
  | false => exact hfreed _
  | true => exact (hfreed _).setStation c.station _

/-- The early closing of a transaction (R52, R80, R91, R146). -/
theorem State.StoresOk.closeEarly {c : Context} (hc : c.EndsOk) (outcome : ResultOutcome)
    (cancelRequested taken : Bool) : (s.closeEarly c outcome cancelRequested taken).StoresOk := by
  by_cases ho : c.origin = .request
  · rw [State.closeEarly_of_request _ _ _ _ ho]
    refine h.close hc ?_ _
    rintro r ⟨⟩
    exact hc.record ho outcome
  · rw [State.closeEarly_of_poll _ _ _ _ ho]
    exact h.close hc (record := none) (by simp) _

end Stores

/-- An early closing leaves nothing in flight. -/
@[simp] theorem State.closeEarly_context (s : State) (c : Context) (outcome : ResultOutcome)
    (cancelRequested taken : Bool) : (s.closeEarly c outcome cancelRequested taken).context = none := by
  obtain ⟨record, clear, heq, -⟩ := s.closeEarly_eq_close c outcome cancelRequested taken
  rw [heq, State.close_context]

/-! ## The look (R57 to R64) -/

/-- The context of a dispatched request (R62). -/
theorem State.dispatchRequest_resend {s : State} {r : Request} (h : s.StoresOk) (hr : r.RangesOk) :
    (s.dispatchRequest r).ResendOk := by
  have hanswer : ∀ b ∈ (if r.needsBuffer then s.freeList.head? else none), b ≤ 63 := by
    split
    · exact h.head
    · exact nofun
  obtain ⟨hlow, hhigh, hstation, hlimit, hattempts, hlength, hout⟩ := hr
  rintro c ⟨⟩
  exact ⟨⟨hhigh, iff_of_true rfl hlow, hstation, fun hne => absurd rfl hne, hlimit, Nat.le_succ_of_le hattempts,
    Nat.zero_le _, hlength, hout, hanswer, nofun⟩, hattempts⟩

/-- The dispatch of a request (R62). -/
theorem State.StoresOk.dispatchRequest {s : State} {r : Request} (h : s.StoresOk) (hr : r.RangesOk) :
    (s.dispatchRequest r).StoresOk := by
  obtain ⟨-, -, -, -, -, -, hout⟩ := hr
  have hremoved : State.StoresOk { s.removeRequest r.ticket with reserved := true } := h.removeRequest r.ticket
  have htaken : State.StoresOk
      (if r.needsBuffer then State.takeHead { s.removeRequest r.ticket with reserved := true } .line
        else { s.removeRequest r.ticket with reserved := true }) := by
    split
    · exact hremoved.takeHead _
    · exact hremoved
  exact htaken.changeOwnerOpt hout .queued .line

/-- The context of a dispatched poll or probe (R63). -/
theorem State.dispatchPoll_resend {s : State} {a : Nat} (h : s.StoresOk) (hlow : 1 ≤ a) (hhigh : a ≤ 31) :
    (s.dispatchPoll a).ResendOk := by
  have horigin : (s.station a).pollOrigin ≠ .request := by
    unfold Station.pollOrigin
    split <;> exact nofun
  rintro c ⟨⟩
  exact ⟨⟨Nat.zero_le _, iff_of_false horigin nofun, hhigh, fun _ => hlow, Nat.zero_le _, Nat.zero_le _, Nat.zero_le _,
    Nat.zero_le _, nofun, h.head, nofun⟩, Nat.zero_le _⟩

/-- The dispatch of a poll or probe (R63). -/
theorem State.StoresOk.dispatchPoll {s : State} (h : s.StoresOk) (a : Nat) : (s.dispatchPoll a).StoresOk :=
  (State.StoresOk.takeHead (s := { s with reserved := true }) h .line).setStation a _

/-- The completion of a request at its dispatch (R64). -/
theorem State.StoresOk.completeAtDispatch {s : State} {r : Request} (h : s.StoresOk) (hr : r.RangesOk) :
    (s.completeAtDispatch r).StoresOk := by
  obtain ⟨hlow, hhigh, hstation, -, -, -, hout⟩ := hr
  exact ((h.removeRequest r.ticket).changeOwnerOpt hout .queued .free).post ⟨hhigh, iff_of_true rfl hlow, hstation,
    Nat.zero_le _, Nat.zero_le _, Nat.zero_le _, nofun⟩

/-- The look of the Dispatcher: what it puts onto the line has an attempt left. -/
theorem State.StoresOk.look {s : State} (h : s.StoresOk) (hflight : s.FlightOk) :
    s.look.StoresOk ∧ s.look.FlightOk := by
  refine State.look_keeps (P := fun x => x.StoresOk ∧ x.FlightOk) ⟨h, hflight⟩ (fun _ hx => hx) ?_ ?_ ?_ ?_
  · intro x hx _
    rw [State.stalledLook_frame]
    exact hx
  · intro x r hx hcan _ hr _ _
    refine ⟨hx.1.completeAtDispatch (hx.1.2.2.1 r hr), State.ResendOk.flight (.of_none ?_)⟩
    simp only [State.canLook, Bool.and_eq_true, Option.isNone_iff_eq_none] at hcan
    simpa [State.completeAtDispatch] using hcan.2
  · intro x r hx _ _ hr _ _
    exact ⟨hx.1.dispatchRequest (hx.1.2.2.1 r hr), (State.dispatchRequest_resend hx.1 (hx.1.2.2.1 r hr)).flight⟩
  · intro x a hx _ _ _ _ hlow hhigh
    exact ⟨hx.1.dispatchPoll a, (State.dispatchPoll_resend hx.1 hlow hhigh).flight⟩

/-! ## The decision on an attempt (R99, R100) -/

/-- What a decided attempt leaves: the transaction has ended, or an attempt remains. -/
def State.DecidedOk (s : State) : Prop :=
  s.StoresOk ∧ s.ResendOk

section Decisions

variable {s : State} {c : Context} (h : s.StoresOk) (hc : c.RangesOk)
include h hc

/-- An ending with a record within its ranges. -/
theorem State.DecidedOk.close {record : Option ResultRecord} (hrecord : ∀ r ∈ record, r.RangesOk) (clearSync : Bool) :
    (s.close c record clearSync).DecidedOk :=
  ⟨h.close hc.ends hrecord clearSync, .of_none (s.close_context ..)⟩

/-- The ending of a request or broadcast (R100, R102). -/
theorem State.DecidedOk.endRequest {r : ResultRecord} (hr : r.RangesOk) : (s.endRequest c r).DecidedOk := by
  refine State.DecidedOk.close h hc ?_ _
  rintro x ⟨⟩
  exact hr

/-- The BUSY return of a request with an attempt left (R65). -/
theorem State.DecidedOk.busyReturn (ho : c.origin = .request) (hremain : c.attempts ≤ c.retryLimit) :
    (s.busyReturn c).DecidedOk := by
  obtain ⟨hticket, horigin, hstation, -, hlimit, -, -, hlength, hout, hanswer, -⟩ := hc
  refine ⟨?_, .of_none rfl⟩
  obtain ⟨htickets, hfree, -, hrest⟩ := (h.changeOwnerOpt hout .line .queued).changeOwnerOpt hanswer .line .free
  obtain ⟨-, -, hqueue, -⟩ := h
  refine ⟨htickets, hfree, fun r hr => ?_, hrest⟩
  rcases mem_placeAtHead.1 hr with rfl | hr
  · exact ⟨horigin.1 ho, hticket, hstation, hlimit, hremain, hlength, hout⟩
  · exact hqueue r hr

/-- A valid BUSY answer (R65, R66). -/
theorem State.DecidedOk.decideBusy (ho : c.origin = .request) : (s.decideBusy c).DecidedOk := by
  unfold State.decideBusy
  split
  · exact State.DecidedOk.endRequest h hc (hc.ends.record ho .cancelled)
  · split
    · rename_i hremain
      exact State.DecidedOk.busyReturn h hc ho (Nat.le_of_lt_succ (of_decide_eq_true hremain.1))
    · exact State.DecidedOk.endRequest h hc (hc.ends.record ho .stationBusy)

/-- A failed attempt of a request (R100, R101). -/
theorem State.DecidedOk.decideFailure (ho : c.origin = .request) (outcome : ResultOutcome) (lost : Bool) :
    (s.decideFailure c outcome lost).DecidedOk := by
  unfold State.decideFailure
  split
  · exact State.DecidedOk.endRequest h hc (hc.ends.record ho (if c.cancelPending then .cancelled else outcome))
  · split
    · exact State.DecidedOk.endRequest h hc (hc.ends.record ho _)
    · split
      · rename_i hremain
        refine ⟨h, ?_⟩
        rintro x ⟨⟩
        exact ⟨hc.retry, Nat.le_of_lt_succ (of_decide_eq_true hremain)⟩
      · exact State.DecidedOk.endRequest h hc (hc.ends.record ho outcome)

/-- The decision on a request: only DATA attaches the answer buffer (R100, R103). -/
theorem State.DecidedOk.decideRequest (ho : c.origin = .request) {v : Verdict} (hv : v.length ≤ 32) (lost : Bool) :
    (s.decideRequest c v lost).DecidedOk := by
  have hdone := hc.ends.record ho .done
  unfold State.decideRequest
  split
  · exact State.DecidedOk.endRequest h hc hdone
  · obtain ⟨-, -, -, -, -, -, -, -, -, hanswer, -⟩ := id hc
    obtain ⟨hticket, horigin, hstation, hattempts, hcollisions, -⟩ := hdone
    exact State.DecidedOk.endRequest h hc ⟨hticket, horigin, hstation, hattempts, hcollisions, hv, hanswer⟩
  · exact State.DecidedOk.endRequest h hc (hc.ends.record ho .refused)
  · exact State.DecidedOk.decideBusy h hc ho
  all_goals exact State.DecidedOk.decideFailure h hc ho _ lost

/-- The decision on a poll or a probe: a new report is posted with the answer buffer (R77 to R79). -/
theorem State.DecidedOk.decidePoll {v : Verdict} (hv : v.length ≤ 32) : (s.decidePoll c v).DecidedOk := by
  unfold State.decidePoll State.judgeReport
  split
  · dsimp only
    split
    · refine State.DecidedOk.close (h.setStation _ _) hc ?_ _
      rintro r ⟨⟩
      obtain ⟨-, -, hstation, -, -, -, hcollisions, -, -, hanswer, -⟩ := hc
      exact ⟨Nat.zero_le _, iff_of_false nofun nofun, hstation, show 1 ≤ 8 by decide, Nat.le_succ_of_le hcollisions,
        hv, hanswer⟩
    · exact State.DecidedOk.close (h.setStation _ _) hc (record := none) (by simp) _
  all_goals exact State.DecidedOk.close h hc (record := none) (by simp) _

end Decisions

/-- A verdict takes effect on a judged attempt, or on a broadcast (R99). -/
theorem State.DecidedOk.takeVerdict {s : State} (h : s.StoresOk) (hranges : ∀ c ∈ s.context, c.RangesOk)
    (hjudged : ∀ c ∈ s.context, c.station ≠ 0 → c.verdict.isSome = true) : s.takeVerdict.DecidedOk := by
  unfold State.takeVerdict
  split
  · exact ⟨h, .of_none ‹_›⟩
  · rename_i c hcontext
    have hc := hranges c hcontext
    obtain ⟨-, horigin, -, hpoll, -, -, -, -, -, -, hverdict⟩ := id hc
    split
    · rename_i h0
      have ho : c.origin = .request := by
        by_contra hne
        exact absurd (hpoll hne) (by omega)
      exact State.DecidedOk.endRequest h hc (hc.ends.record ho .done)
    · rename_i h0
      split
      · rename_i hnone
        exact absurd (hjudged c hcontext h0) (by simp [hnone])
      · rename_i v hv
        dsimp only
        split
        · exact State.DecidedOk.decideRequest (h.setStation _ _) hc ‹_› (hverdict v hv) _
        all_goals exact State.DecidedOk.decidePoll (h.setStation _ _) hc (hverdict v hv)

end Sys2Proof.Machine
end

section
/-! SUPPORT. Every act keeps the records, the context and the answer within their ranges, while the line's own invariant
holds. -/

namespace Sys2Proof.Machine

/-- The two parts of the model's invariant. -/
def State.CarriedOk (s : State) : Prop :=
  s.StoresOk ∧ s.FlightOk

/-- An attempt that is decided leaves the invariant in any phase. -/
theorem State.DecidedOk.carried {s : State} (h : s.DecidedOk) : s.CarriedOk :=
  ⟨h.1, h.2.flight⟩

/-- With nothing in flight the stores are all. -/
theorem State.StoresOk.carried {s : State} (h : s.StoresOk) (hnone : s.context = none) : s.CarriedOk :=
  ⟨h, State.ResendOk.flight (.of_none hnone)⟩

/-- The end of a drain keeps what a decision leaves. -/
theorem State.DecidedOk.endDrain {s : State} (h : s.DecidedOk) : s.endDrain.DecidedOk := by
  rw [State.endDrain_frame]
  exact h

/-- IDLE is entered. -/
theorem State.DecidedOk.enterIdle {s : State} (h : s.DecidedOk) : s.enterIdle.DecidedOk := h

/-- GAP is entered for an attempt (R88). -/
theorem State.DecidedOk.enterGap {s : State} (h : s.DecidedOk) : s.enterGap.DecidedOk := h

/-- HOLDOFF is entered (R105). -/
theorem State.DecidedOk.enterHoldoff {s : State} (h : s.DecidedOk) : s.enterHoldoff.DecidedOk := h

/-- The mode becomes STOPPED (R142). -/
theorem State.DecidedOk.becomeStopped {s : State} (h : s.DecidedOk) : s.becomeStopped.DecidedOk := h

/-- The look after a decision (R57, R102). -/
theorem State.DecidedOk.look {s : State} (h : s.DecidedOk) : s.look.CarriedOk :=
  h.1.look h.2.flight

/-- The closing of a transaction cut short. -/
theorem State.StoresOk.cutShort {s : State} {c : Context} (h : s.StoresOk) (hc : c.EndsOk) (outcome : ResultOutcome)
    (cancelRequested taken : Bool) : (s.closeEarly c outcome cancelRequested taken).DecidedOk :=
  ⟨h.closeEarly hc outcome cancelRequested taken, .of_none (s.closeEarly_context ..)⟩

/-! ## Sending the call -/

/-- A collision, with an attempt left: the fourth ends the transaction (R91). -/
theorem State.DecidedOk.collide {s : State} (h : s.DecidedOk) : s.collide.DecidedOk := by
  obtain ⟨hstores, hresend⟩ := h
  unfold State.collide
  split
  · exact ⟨hstores, hresend⟩
  · rename_i c hcontext
    obtain ⟨hc, hremain⟩ := hresend c hcontext
    dsimp only
    split
    · refine State.DecidedOk.endDrain (State.StoresOk.cutShort ?_ hc.collided ..)
      exact hstores
    · rename_i hfew
      split
      · refine State.DecidedOk.endDrain (State.StoresOk.cutShort ?_ hc.collided ..)
        exact hstores
      · refine ⟨hstores, ?_⟩
        rintro x ⟨⟩
        obtain ⟨hticket, horigin, hstation, hpoll, hlimit, hattempts, -, hrest⟩ := hc
        exact ⟨⟨hticket, horigin, hstation, hpoll, hlimit, hattempts, Nat.le_of_lt_succ (Nat.lt_of_not_le hfew), hrest⟩,
          hremain⟩

/-- The first start bit of a call fixes the call bits (R16, R89). -/
theorem State.CarriedOk.beginCall {s : State} (h : s.CarriedOk) : s.beginCall.CarriedOk := by
  cases hcontext : s.context with
  | none =>
    have hnothing : s.beginCall = s := by simp only [State.beginCall, hcontext]
    rw [hnothing]
    exact h
  | some c =>
    rw [State.beginCall_eq hcontext rfl]
    exact ⟨h.1, h.2.replace hcontext (h.2.1 c hcontext) rfl rfl⟩

/-- The end of GAP (R88). -/
theorem State.DecidedOk.enterCalling {s : State} (h : s.DecidedOk) : s.enterCalling.CarriedOk := by
  have hlead : State.CarriedOk
      (State.loadBits { s with phase := .calling, de := true, tx := .lead } .deLead s.lineConfig.deLead) :=
    ⟨h.1, State.ResendOk.flight h.2⟩
  unfold State.enterCalling
  dsimp only
  split
  · exact hlead.beginCall
  · exact hlead

/-- A complete call counts its attempt (R89). -/
theorem State.DecidedOk.completeCall {s : State} (h : s.DecidedOk) : s.completeCall.CarriedOk := by
  obtain ⟨hstores, hresend⟩ := h
  cases hcontext : s.context with
  | none =>
    have hnothing : s.completeCall = s := by simp only [State.completeCall, hcontext]
    rw [hnothing]
    exact State.DecidedOk.carried ⟨hstores, hresend⟩
  | some c =>
    obtain ⟨hc, hremain⟩ := hresend c hcontext
    obtain ⟨hticket, horigin, hstation, hpoll, hlimit, -, hrest⟩ := hc
    have hcounted : Context.RangesOk { c with attempts := c.attempts + 1 } :=
      ⟨hticket, horigin, hstation, hpoll, hlimit, Nat.succ_le_succ hremain, hrest⟩
    have hone : ∀ x ∈ some { c with attempts := c.attempts + 1 }, x.RangesOk := by
      rintro x ⟨⟩
      exact hcounted
    by_cases h0 : c.station = 0
    · rw [State.completeCall_of_broadcast hcontext h0]
      exact ⟨hstores, .of_ranges hone (.inr (.inr (.inr rfl)))⟩
    · rw [State.completeCall_of_station hcontext h0]
      exact ⟨hstores, .of_ranges hone (.inr (.inl rfl))⟩

/-- The end of a sent character (R89). -/
theorem State.DecidedOk.sendNext {s : State} (h : s.DecidedOk) (i : Nat) : (s.sendNext i).CarriedOk := by
  have htrail : s.trailBegun.DecidedOk := h
  cases hcontext : s.context with
  | none =>
    have hnothing : s.sendNext i = s := by simp only [State.sendNext, hcontext]
    rw [hnothing]
    exact h.carried
  | some c =>
    cases hnext : (s.callTelegram c (c.callBits.getD (c.decideCallBits (s.station c.station))))[i + 1]? with
    | some next =>
      rw [State.sendNext_of_more hcontext rfl hnext]
      exact h.carried
    | none =>
      rw [State.sendNext_of_last hcontext rfl (List.getElem?_eq_none_iff.1 hnext)]
      split
      · exact htrail.completeCall
      · exact htrail.carried

/-! ## Receiving -/

/-- The beginning of an answer (R94). -/
theorem State.CarriedOk.beginReception {s : State} (h : s.CarriedOk) : s.beginReception.CarriedOk := by
  obtain ⟨⟨htickets, hfree, hqueue, hresults, -⟩, hflight⟩ := h
  rw [State.beginReception_eq]
  exact ⟨⟨htickets, hfree, hqueue, hresults, Nat.zero_le _, Nat.zero_le _⟩,
    .of_ranges hflight.1 (.inr (.inr (.inl rfl)))⟩

/-- A character of an answer: a failure, a character that is kept, or Check B (R94, R95, R97). -/
theorem State.CarriedOk.answerCharacter {s : State} (h : s.CarriedOk) (d : Delivered) :
    (s.answerCharacter d).CarriedOk := by
  obtain ⟨hstores, hflight⟩ := h
  obtain ⟨htickets, hfree, hqueue, hresults, hlength, htaken⟩ := id hstores
  cases hcontext : s.context with
  | none =>
    have hnothing : s.answerCharacter d = s := by simp only [State.answerCharacter, hcontext]
    rw [hnothing]
    exact ⟨hstores, hflight⟩
  | some c =>
    have hc := hflight.1 c hcontext
    cases hv : c.verdict with
    | some v =>
      rw [State.answerCharacter_of_failed d hcontext (by simp [hv])]
      exact ⟨hstores, hflight⟩
    | none =>
      cases hx : s.reception.failure c d with
      | some x =>
        rw [State.answerCharacter_of_failure hcontext hv hx]
        exact ⟨hstores, hflight.replace hcontext (hc.fail x) rfl rfl⟩
      | none =>
        have htest : s.reception.test c d.data = none := (Option.or_eq_none_iff.1 hx).2
        by_cases hmore : s.reception.taken < 3 ∨ s.reception.taken < s.reception.length + 4
        · rw [State.answerCharacter_of_kept hcontext hv hx hmore]
          have hkept := Reception.keep_ranges hlength htaken htest hmore
          split
          · rw [State.storePayload_frame]
            exact ⟨⟨htickets, hfree, hqueue, hresults, hkept⟩, hflight⟩
          · exact ⟨⟨htickets, hfree, hqueue, hresults, hkept⟩, hflight⟩
        · rw [State.answerCharacter_of_checkB hcontext hv hx (by omega) (by omega)]
          refine ⟨hstores, .of_ranges ?_ (.inr (.inr (.inr rfl)))⟩
          rintro x ⟨⟩
          exact hc.judge ((Reception.close_length_le ..).trans hlength)

/-- A late character (R98). -/
theorem State.CarriedOk.lateCharacter {s : State} (h : s.CarriedOk) (hphase : s.phase = .settling) :
    s.lateCharacter.CarriedOk := by
  cases hcontext : s.context with
  | none =>
    have hnothing : s.lateCharacter = s := by simp only [State.lateCharacter, hcontext]
    rw [hnothing]
    exact h
  | some c =>
    by_cases h0 : c.station = 0
    · rw [State.lateCharacter_of_broadcast hphase hcontext h0]
      exact h
    · rw [State.lateCharacter_of_station hphase hcontext h0]
      exact h

/-- A character that was not asked for: a conflict in IDLE, GAP or HOLDOFF enters HOLDOFF (R104). -/
theorem State.DecidedOk.unaskedCharacter {s : State} (h : s.DecidedOk) (d : Delivered) :
    (s.unaskedCharacter d).CarriedOk := by
  unfold State.unaskedCharacter State.reloadQuiet
  split
  · exact State.DecidedOk.carried (s := s.countConflict.enterHoldoff) h
  · split <;> exact State.DecidedOk.carried h

/-- A delivered character (R4). -/
theorem State.CarriedOk.takeCharacter {s : State} (h : s.CarriedOk) (hde : s.de = true → s.phase = .calling)
    (hidle : s.phase = .idle → s.context = none) (d : Delivered) : (s.takeCharacter d).CarriedOk := by
  obtain ⟨hstores, hflight⟩ := id h
  have hunasked : s.phase = .idle ∨ s.phase = .gap ∨ s.phase = .holdoff → (s.unaskedCharacter d).CarriedOk := by
    rintro (hp | hp | hp)
    · exact State.DecidedOk.unaskedCharacter ⟨hstores, .of_none (hidle hp)⟩ d
    · exact State.DecidedOk.unaskedCharacter ⟨hstores, hflight.resend (.inl hp)⟩ d
    · exact State.DecidedOk.unaskedCharacter ⟨hstores, hflight.resend (.inr (.inr hp))⟩ d
  unfold State.takeCharacter State.echoCheck State.stoppedCharacter
  split
  · rename_i hasserted
    have hcollide : s.collide.CarriedOk :=
      (State.DecidedOk.collide ⟨hstores, hflight.resend (.inr (.inl (hde hasserted)))⟩).carried
    split
    · split
      · exact h
      · exact hcollide
    all_goals exact hcollide
  · split
    · split <;> exact h
    · split <;> rename_i hphase
      · exact hunasked (.inl hphase)
      · exact hunasked (.inr (.inl hphase))
      · exact hunasked (.inr (.inr hphase))
      · exact h.beginReception.answerCharacter d
      · exact h.answerCharacter d
      · exact h.lateCharacter hphase
      · exact h

/-! ## Breaks (R106, R107) -/

/-- A break that cuts an answer short. -/
theorem State.CarriedOk.breakReception {s : State} (h : s.CarriedOk) : s.breakReception.CarriedOk := by
  unfold State.breakReception
  split
  · exact h
  · rename_i c hcontext
    split
    · exact h
    · exact ⟨h.1, h.2.replace hcontext ((h.2.1 c hcontext).fail _) rfl rfl⟩

/-- A break is detected. -/
theorem State.CarriedOk.detectBreak {s : State} (h : s.CarriedOk) : s.detectBreak.CarriedOk := by
  have hbroken : State.CarriedOk (State.raise { s with
      breaks := satInc Config.lineCounterCap s.breaks
      receiver := { inCharacter := none, heldSpace := false, awaitMark := true, lineInBreak := true } } .lineBreak) := h
  unfold State.detectBreak
  split
  · exact h
  · dsimp only
    split
    · rename_i hphase
      exact (State.DecidedOk.collide ⟨hbroken.1, hbroken.2.resend (.inr (.inl hphase))⟩).carried
    · exact hbroken.beginReception.breakReception
    · exact hbroken.breakReception
    all_goals exact hbroken

/-- A break ends: the attempt that it cut short is decided. -/
theorem State.CarriedOk.endBreak {s : State} (h : s.CarriedOk) (hline : s.LineOk) : s.endBreak.CarriedOk := by
  obtain ⟨-, -, hallows, -, -, -, -, hjudged⟩ := hline
  have hready : State.CarriedOk { s with receiver := Receiver.ready } := h
  have hagain : State.ResendOk { s with receiver := Receiver.ready } →
      (State.enterHoldoff { s with receiver := Receiver.ready }).CarriedOk := fun hresend =>
    State.DecidedOk.carried (State.DecidedOk.enterHoldoff ⟨hready.1, hresend⟩)
  unfold State.endBreak
  split
  · rename_i hbreak
    have hdecided : s.phase = .settling ∨ s.phase = .receiving →
        State.CarriedOk (State.takeVerdict { s with receiver := Receiver.ready }).enterHoldoff.endDrain := by
      intro hphase
      have htaken := State.DecidedOk.takeVerdict (s := { s with receiver := Receiver.ready }) h.1 h.2.1
        (hjudged (hphase.imp id fun hp => ⟨hp, hbreak⟩))
      exact htaken.enterHoldoff.endDrain.carried
    dsimp only
    split
    · exact hready
    · split <;> rename_i hphase
      · have hnone : s.context = none := by simpa [hphase, LinePhase.allows] using hallows
        exact hagain (.of_none hnone)
      · exact hagain (hready.2.resend (.inl hphase))
      · exact hagain (hready.2.resend (.inr (.inr hphase)))
      · exact hdecided (.inr hphase)
      · exact hdecided (.inl hphase)
      · exact (State.DecidedOk.collide ⟨hready.1, hready.2.resend (.inr (.inl hphase))⟩).carried
      · exact hready
  · exact h

/-! ## Timers -/

/-- The answer timer (R93). -/
theorem State.CarriedOk.answerTimerEnd {s : State} (h : s.CarriedOk) : s.answerTimerEnd.CarriedOk := by
  unfold State.answerTimerEnd
  split
  · refine ⟨h.1, .of_ranges (fun c hc => ?_) (.inr (.inr (.inr rfl)))⟩
    obtain ⟨x, hx, rfl⟩ := Option.mem_map.1 hc
    exact (h.2.1 x hx).judge (v := .noAnswer) (Nat.zero_le _)
  · exact h

/-- The character-gap timer (R96, R97). -/
theorem State.CarriedOk.characterGapEnd {s : State} (h : s.CarriedOk) : s.characterGapEnd.CarriedOk := by
  unfold State.characterGapEnd
  split
  · refine ⟨h.1, .of_ranges (fun c hc => ?_) (.inr (.inr (.inr rfl)))⟩
    obtain ⟨x, hx, rfl⟩ := Option.mem_map.1 hc
    split
    · exact h.2.1 x hx
    · exact (h.2.1 x hx).fail _
  · exact h

/-- The settle timer (R99, R101, R102). -/
theorem State.CarriedOk.settleEnd {s : State} (h : s.CarriedOk) (hline : s.LineOk) : s.settleEnd.CarriedOk := by
  obtain ⟨-, -, -, -, -, -, -, hjudged⟩ := hline
  unfold State.settleEnd
  split
  · rename_i hsettled
    have htaken := State.DecidedOk.takeVerdict h.1 h.2.1 (hjudged (.inl hsettled.1))
    dsimp only
    split
    · exact htaken.enterGap.carried
    · exact htaken.enterIdle.endDrain.look
  · exact h

/-- The holdoff timer (R105). -/
theorem State.CarriedOk.holdoffEnd {s : State} (h : s.CarriedOk) : s.holdoffEnd.CarriedOk := by
  unfold State.holdoffEnd
  split
  · rename_i hheld
    have hdecided : s.DecidedOk := ⟨h.1, h.2.resend (.inr (.inr hheld.1))⟩
    split
    · exact hdecided.enterGap.carried
    · exact hdecided.enterIdle.look
  · exact h

/-! ## Commands -/

/-- The queueing of an accepted SUBMIT (R44, R48). -/
theorem State.CarriedOk.enqueue {s : State} (h : s.CarriedOk) {a : Args} (ha : submitArgumentsOk a = true) :
    (s.enqueue a).CarriedOk := by
  have hticket := s.freeTicket_range 255 h.1.1
  have hcarried := h.1.changeOwnerOpt (bufferOfArg_range ha) .host .queued
  obtain ⟨-, -, hqueue, -⟩ := h.1
  have hflight : (s.changeOwner? (bufferOfArg a.arg2) .host .queued).FlightOk := by
    rw [State.changeOwnerOpt_frame]
    exact h.2
  obtain ⟨-, hfree, -, hrest⟩ := hcarried
  refine ⟨⟨nextTicket_range _, hfree, fun r hr => ?_, hrest⟩, hflight⟩
  rcases mem_placeAtTail.1 hr with rfl | hr
  · exact submitRecord_ranges ha hticket
  · exact hqueue r hr

/-- CANCEL of the request in GAP or HOLDOFF (R52). -/
theorem State.CarriedOk.cancelWaiting {s : State} {c : Context} (h : s.CarriedOk) (hc : s.context = some c) :
    (s.cancelWaiting c).CarriedOk := by
  have hclosed := h.1.cutShort (h.2.1 c hc).ends .cancelled false true
  unfold State.cancelWaiting
  dsimp only
  split
  · exact hclosed.enterIdle.endDrain.look
  · exact hclosed.endDrain.carried

/-- ABORT (R146). -/
theorem State.CarriedOk.abort {s : State} (h : s.CarriedOk) : (abortWork s).state.CarriedOk := by
  cases hc : s.context with
  | none =>
    rw [abortWork_of_idle hc]
    exact State.StoresOk.carried h.1 hc
  | some c =>
    have hclosed := State.StoresOk.cutShort (s := s.releaseLine) h.1 (h.2.1 c hc).ends .aborted c.cancelPending false
    rw [abortWork_of_flight hc]
    exact hclosed.becomeStopped.carried

/-- STOP (R144). -/
theorem State.CarriedOk.stopLine {s : State} (h : s.CarriedOk) : s.stopLine.CarriedOk := by
  unfold State.stopLine
  split
  · exact h
  all_goals
    split
    · exact h
    · rename_i hnone
      exact State.StoresOk.carried h.1 (by simpa using hnone)

/-- The holds that end (R67). -/
theorem State.CarriedOk.endHolds {s : State} (h : s.CarriedOk) : s.endHolds.CarriedOk := by
  unfold State.endHolds
  split
  · obtain ⟨⟨htickets, hfree, hqueue, hrest⟩, hflight⟩ := h
    refine State.StoresOk.look ⟨htickets, hfree, fun r hr => ?_, hrest⟩ hflight
    obtain ⟨x, hx, rfl⟩ := List.mem_map.1 hr
    split <;> exact hqueue x hx
  · exact h

/-- The end of initialisation forms the free list (R155). -/
theorem State.CarriedOk.endInitialisation {s : State} (h : s.CarriedOk) : s.endInitialisation.CarriedOk := by
  unfold State.endInitialisation
  split
  · obtain ⟨⟨htickets, -, hrest⟩, hflight⟩ := h
    exact ⟨⟨htickets, fun b hb => Nat.le_of_lt_succ (List.mem_range.1 hb), hrest⟩, hflight⟩
  all_goals exact h

/-! ## Every act -/

/-- Every act, from a state in which the line's own invariant holds. -/
theorem State.CarriedOk.acts {s t : State} (h : s.CarriedOk) (hline : s.LineOk) (hact : s.Acts t) : t.CarriedOk := by
  obtain ⟨hde, htx, hallows, -⟩ := id hline
  have hidle : s.phase = .idle → s.context = none := fun hp => by simpa [hp, LinePhase.allows] using hallows
  have hsending : s.tx ≠ .quiet → s.DecidedOk := fun hx =>
    ⟨h.1, h.2.resend (.inr (.inl (by by_contra hp; exact hx (htx.2 hp))))⟩
  cases hact with
  | nothing => exact h
  | allocate => exact ⟨h.1.takeHead _, by rw [State.takeHead_frame]; exact h.2⟩
  | release b hb =>
    refine State.StoresOk.look (State.StoresOk.changeOwnerOpt (buffer := some b) h.1 ?_ ..) ?_
    · rintro x ⟨⟩
      exact hb
    · rw [State.changeOwner_frame]
      exact h.2
  | submit a ha => exact (h.enqueue ha).1.look (h.enqueue ha).2
  | cancelQueued r hr =>
    obtain ⟨-, -, -, -, -, -, hout⟩ := h.1.2.2.1 r hr
    refine State.StoresOk.look ((h.1.removeRequest r.ticket).changeOwnerOpt hout ..) ?_
    rw [State.changeOwnerOpt_frame]
    exact h.2
  | cancelWaiting c hc hphase => exact h.cancelWaiting hc
  | cancelFlying c hc hphase => exact ⟨h.1, h.2.replace hc (h.2.1 c hc) rfl rfl⟩
  | take r rest shown hr =>
    obtain ⟨⟨htickets, hfree, hqueue, hresults, hanswer⟩, hflight⟩ := h
    rw [hr] at hresults
    obtain ⟨⟨-, -, -, -, -, -, hbuffer⟩, hrest⟩ := List.forall_mem_cons.1 hresults
    have htaken : State.StoresOk { s with results := rest, taken := shown } :=
      ⟨htickets, hfree, hqueue, hrest, hanswer⟩
    refine State.StoresOk.look (htaken.changeOwnerOpt hbuffer ..) ?_
    rw [State.changeOwnerOpt_frame]
    exact hflight
  | start hmode => exact State.StoresOk.look h.1 h.2
  | stop => exact h.stopLine
  | abort => exact h.abort
  | setLine a ha => exact h
  | clearCounters => exact h
  | setLimits a ha => exact h
  | configure a =>
    rw [State.setStation_eq]
    exact h
  | configureAndLook a =>
    rw [State.setStation_eq]
    exact State.StoresOk.look h.1 h.2
  | clearChanged a =>
    rw [State.setStation_eq]
    exact h
  | softReset => exact (State.recordsOk_iff _).1 State.recordsOk_reset
  | hardReset held => exact (State.recordsOk_iff _).1 State.recordsOk_reset
  | endInitialisation => exact h.endInitialisation
  | receive r => exact h
  | beginReception r hphase => exact State.CarriedOk.beginReception (s := { s with receiver := r }) h
  | takeCharacter r d => exact State.CarriedOk.takeCharacter (s := { s with receiver := r }) h hde.1 hidle d
  | detectBreak => exact h.detectBreak
  | endBreak => exact h.endBreak hline
  | echoMissing hx => exact (hsending hx).collide.carried
  | characterSent i hx => exact (hsending hx).sendNext i
  | telegramGapEnd hphase => exact State.DecidedOk.enterCalling ⟨h.1, h.2.resend (.inl hphase)⟩
  | deLeadEnd => exact h.beginCall
  | deTrailEnd hx => exact (hsending hx).completeCall
  | answerTimerEnd => exact h.answerTimerEnd
  | characterGapEnd => exact h.characterGapEnd
  | settleEnd => exact h.settleEnd hline
  | holdoffEnd => exact h.holdoffEnd
  | tick =>
    unfold State.tick State.takeGivenTicks
    rw [State.tick100_frame, State.tick10_frame]
    exact h
  | tick10 =>
    rw [State.tick10_frame]
    exact h
  | tick100 =>
    rw [State.tick100_frame]
    exact h
  | look => exact h.1.look h.2
  | endHolds => exact h.endHolds

/-- A change of the host window. -/
theorem State.CarriedOk.of_agrees (s t : State) (hst : s.AgreesBehindWindow t) (h : s.CarriedOk) : t.CarriedOk := by
  rw [hst]
  exact h

/-- A change of the host window, seen with the line's own invariant. -/
theorem State.CarriedOk.of_agrees_line (s t : State) (hst : s.AgreesBehindWindow t) (h : s.CarriedOk ∧ s.LineOk) :
    t.CarriedOk ∧ t.LineOk := by
  rw [hst]
  exact h

/-- Every step keeps the records, the context and the answer within their ranges. -/
theorem step_keeps_carriedOk {s t : State} (h : s.CarriedOk) (hline : s.LineOk) (hstep : step s = .next t) :
    t.CarriedOk :=
  (step_reaches hstep).keeps (P := fun s => s.CarriedOk ∧ s.LineOk) ⟨h, hline⟩ State.CarriedOk.of_agrees_line
    State.CarriedOk.of_agrees fun _ _ hact hs => hs.1.acts hs.2 hact

/-- Settles O58: each act keeps the table and the settings, and, where the line's own invariant holds, the records. -/
theorem stepKeepsRanges : Obligations.StepKeepsRanges := by
  refine ⟨fun s t hstations hranges hstep => ?_, fun s t hline hrecords hstep => ?_⟩
  · exact t.tableOk_iff.1 (step_keeps_tableOk (s.tableOk_iff.2 ⟨hstations, hranges⟩) hstep)
  · exact t.recordsOk_iff.2 (step_keeps_carriedOk (s.recordsOk_iff.1 hrecords) hline hstep)

end Sys2Proof.Machine
end

section
/-! SUPPORT. The commands of the Station Table, the characters that no call and no answer awaits, and the resets. -/

namespace Sys2Proof.Machine

/-! ## The table's entries and their codes -/

/-- The addresses from 1 on have an entry to replace (R19). -/
theorem State.setStation_of_pos {a : Nat} (s : State) (e : Station) (ha : 1 ≤ a) :
    s.setStation a e = { s with stations := s.stations.set (a - 1) e } := by
  obtain ⟨n, rfl⟩ : ∃ n, a = n + 1 := ⟨a - 1, by omega⟩
  rfl

/-- Each entry of the table is that of an address (R19). -/
theorem State.exists_station_of_mem {s : State} {e : Station} (he : e ∈ s.stations) :
    ∃ a, 1 ≤ a ∧ a ≤ s.stations.length ∧ s.station a = e := by
  obtain ⟨i, hi, rfl⟩ := List.getElem_of_mem he
  exact ⟨i + 1, by omega, hi, by simp [State.station, hi]⟩

/-- A function that gives each state its code of R20 is the model's. -/
theorem stationCode_eq {code : StationState → Byte}
    (h : ∀ p ∈ [(StationState.unknown, (0 : Byte)), (.online, 1), (.suspect, 2), (.offline, 3), (.disabled, 4)],
      code p.1 = p.2) (state : StationState) : code state = byteOf state.code := by
  cases state with
  | unknown => exact h (.unknown, 0) (by simp)
  | online => exact h (.online, 1) (by simp)
  | suspect => exact h (.suspect, 2) (by simp)
  | offline => exact h (.offline, 3) (by simp)
  | disabled => exact h (.disabled, 4) (by simp)

/-- A byte shown as a count is itself. -/
@[simp] theorem byteOf_toNat (b : Byte) : byteOf b.toNat = b :=
  BitVec.ofNat_toNat ..

/-! ## SET_STATION (R28 to R34) -/

/-- The reset-counters part, in one record (R30). -/
theorem Station.resetCounters_eq (e : Station) (b : Bool) :
    (if b then e.resetCounters else e) = { e with
      answersTaken := if b then 0 else e.answersTaken
      failedAttempts := if b then 0 else e.failedAttempts
      duplicateReports := if b then 0 else e.duplicateReports
      lateCharacters := if b then 0 else e.lateCharacters } := by
  cases b <;> rfl

/-- The reset-entry part, in one record: a DISABLED entry stays DISABLED (R31). -/
theorem Station.resetEntry_eq (e : Station) (b : Bool) :
    (if b then e.resetEntry else e) = { e with
      state := if e.state = .disabled then .disabled else if b then .unknown else e.state
      failCount := if b then 0 else e.failCount
      callToggle := if b then false else e.callToggle
      lastReport := if b then true else e.lastReport
      synced := if b then false else e.synced
      changed := e.changed || (b && e.state != .disabled && e.state != .unknown) } := by
  cases b with
  | true => simp [Station.resetEntry]
  | false => by_cases hd : e.state = .disabled <;> cases e <;> simp_all

/-- The availability part, in one record (R32, R33). -/
theorem Station.setAvailability_eq (e : Station) {availability : Byte} {disable enable : Bool} (period : Nat)
    (hrange : availability.toNat ≤ 2) (hdisable : disable = (availability == 2))
    (henable : enable = (availability == 1)) :
    e.setAvailability availability.toNat period = { e with
      state := if disable then .disabled else if e.state = .disabled then (if enable then .unknown else .disabled)
        else e.state
      failCount := if disable then 0 else e.failCount
      synced := if disable then false else e.synced
      pollCountdown := if enable = true ∧ e.state = .disabled then period else e.pollCountdown
      changed := e.changed || (disable && e.state != .disabled) || (enable && e.state == .disabled) } := by
  subst hdisable henable
  have hcases : availability = 0 ∨ availability = 1 ∨ availability = 2 := by
    bv_omega
  rcases hcases with rfl | rfl | rfl
  · by_cases hd : e.state = .disabled <;> cases e <;> simp_all [Station.setAvailability]
  · by_cases hd : e.state = .disabled <;> cases e <;> simp_all [Station.setAvailability, Station.enable]
  · simp [Station.setAvailability, Station.disable]

/-- An argument of SET_STATION is out of its range, or none is (R29). -/
theorem stationArgumentsOk_iff (a : Args) :
    stationArgumentsOk a = true ↔ 1 ≤ a.arg0.toNat ∧ a.arg0.toNat ≤ 31 ∧ a.arg1.toNat ≤ 2 ∧ a.arg3.toNat ≤ 3 := by
  simp [stationArgumentsOk, and_assoc]

/-- Settles O26: the three parts of an accepted SET_STATION compose to the one change of the entry. -/
theorem setStationRule : Obligations.SetStationRule := by
  rintro s written a e after resetEntry resetCounters disable enable code hcode htakes rfl rfl rfl rfl hdisable henable
    hafter rfl
  have hexec : exec .setStation s = .next (s.hostCommand 0x0D setStationWork) := rfl
  rw [hexec, State.hostCommand_of_takes htakes]
  refine ⟨fun hbad => ?_, fun hlow hhigh havailability hflags => ?_⟩
  · have hrefused : stationArgumentsOk s.args = false := by
      rw [Bool.eq_false_iff, Ne, stationArgumentsOk_iff]
      omega
    have hwork : setStationWork (s.handedOver 0x0D) = (s.handedOver 0x0D).refuse .badArgument :=
      if_pos (congrArg (!·) hrefused)
    rw [hwork]
    rfl
  · have haccepted : stationArgumentsOk s.args = true :=
      (stationArgumentsOk_iff _).2 ⟨hlow, hhigh, havailability, hflags⟩
    have hentry : s.configuredEntry s.args = after := by
      rw [hafter, State.configuredEntry]
      generalize s.station s.args.arg0.toNat = e
      generalize s.args.arg3.getLsbD 0 = resetEntry
      generalize s.args.arg2.toNat = period
      rw [Station.configure, Station.resetCounters_eq, Station.resetEntry_eq,
        Station.setAvailability_eq _ _ havailability hdisable henable, Station.setPeriod]
      clear hafter hdisable henable
      by_cases hd : e.state = .disabled
      · cases resetEntry <;> by_cases hp : period = e.pollPeriod <;> simp [hd, hp]
      · cases resetEntry <;> simp [hd, bne, beq_eq_decide]
    have hwork : setStationWork (s.handedOver 0x0D) =
        { state := if (s.station s.args.arg0.toNat).state = after.state ∧
              (s.station s.args.arg0.toNat).pollPeriod = after.pollPeriod
            then (s.handedOver 0x0D).setStation s.args.arg0.toNat after
            else ((s.handedOver 0x0D).setStation s.args.arg0.toNat after).look
          code := .ok
          replies := Replies.of s.args.arg0.toNat after.state.code after.failCount 0 } := by
      rw [← hentry]
      exact if_neg (by simp [State.handedOver, haccepted])
    rw [hwork, State.setStation_of_pos _ _ hlow, stationCode_eq hcode]
    simp only [Replies.of, byteOf_toNat]
    rfl

/-! ## GET_STATION (R39) -/

/-- The four flags of the sequence byte, and nothing above them (R39). -/
theorem Station.sequenceByte_bits (e : Station) :
    (byteOf e.sequenceByte).getLsbD 0 = e.callToggle ∧ (byteOf e.sequenceByte).getLsbD 1 = e.lastReport ∧
      (byteOf e.sequenceByte).getLsbD 2 = e.synced ∧ (byteOf e.sequenceByte).getLsbD 3 = e.changed ∧
      (byteOf e.sequenceByte).toNat < 16 := by
  unfold Station.sequenceByte
  generalize e.callToggle = toggle, e.lastReport = report, e.synced = synced, e.changed = changed
  revert toggle report synced changed
  decide

/-- GET_STATION refuses an address without an entry and a page above 2 (R39). -/
theorem getStationWork_of_bad {s : State}
    (h : s.latch.arg0.toNat = 0 ∨ 31 < s.latch.arg0.toNat ∨ 2 < s.latch.arg1.toNat) :
    getStationWork s = s.refuse .badArgument :=
  if_pos h

/-- GET_STATION answers a page of an entry (R39). -/
theorem getStationWork_of_page {s : State} (hlow : 1 ≤ s.latch.arg0.toNat) (hhigh : s.latch.arg0.toNat ≤ 31)
    (hpage : s.latch.arg1.toNat ≤ 2) :
    getStationWork s =
      { state := s, code := .ok, replies := (s.station s.latch.arg0.toNat).page s.latch.arg1.toNat } :=
  if_neg (by omega)

/-- Settles O27: the refusal, and the three pages. -/
theorem getStationRule : Obligations.GetStationRule := by
  rintro s a e code hcode htakes rfl rfl
  have hexec : exec .getStation s = .next (s.hostCommand 0x0E getStationWork) := rfl
  rw [hexec, State.hostCommand_of_takes htakes]
  refine ⟨fun hbad => ?_, fun hlow hhigh hpage => ?_, fun hlow hhigh hpage => ?_, fun hlow hhigh hpage => ?_⟩
  · rw [getStationWork_of_bad (s := s.handedOver 0x0E) hbad]
    rfl
  · refine ⟨byteOf (s.station s.args.arg0.toNat).sequenceByte, Station.sequenceByte_bits _, ?_⟩
    rw [getStationWork_of_page (s := s.handedOver 0x0E) hlow hhigh (by simp [State.handedOver, hpage]),
      stationCode_eq hcode]
    simp only [State.handedOver, hpage]
    rfl
  all_goals
    rw [getStationWork_of_page (s := s.handedOver 0x0E) hlow hhigh (by simp [State.handedOver, hpage])]
    simp only [State.handedOver, hpage]
    rfl

/-! ## NEXT_CHANGE (R37) -/

/-- With no changed flag set there is no lowest changed address. -/
theorem State.lowestChanged_eq_none {s : State} (h : ∀ a, 1 ≤ a → a ≤ 31 → (s.station a).changed = false) :
    s.lowestChanged = none := by
  refine List.find?_eq_none.2 fun a ha => ?_
  obtain ⟨i, hi, rfl⟩ := List.mem_map.1 ha
  rw [h (i + 1) (by omega) (Nat.succ_le_of_lt (List.mem_range.1 hi))]
  exact nofun

/-- The lowest address whose changed flag is set. -/
theorem State.lowestChanged_eq_some {s : State} {a : Nat} (hlow : 1 ≤ a) (hhigh : a ≤ 31)
    (ha : (s.station a).changed = true) (hbelow : ∀ b, 1 ≤ b → b < a → (s.station b).changed = false) :
    s.lowestChanged = some a := by
  obtain ⟨i, rfl⟩ : ∃ i, a = i + 1 := ⟨a - 1, by omega⟩
  have hfirst : (List.range 31).find? ((fun a => (s.station a).changed) ∘ (· + 1)) = some i := by
    refine List.find?_range_eq_some.2 ⟨ha, List.mem_range.2 (by omega), fun j hj => ?_⟩
    simp [hbelow (j + 1) (by omega) (by omega)]
  rw [State.lowestChanged, stationAddresses, List.find?_map, hfirst]
  rfl

/-- NEXT_CHANGE with an empty change set (R37). -/
theorem nextChangeWork_of_none {s : State} (h : s.lowestChanged = none) : nextChangeWork s = s.refuse .none := by
  simp only [nextChangeWork, h]

/-- NEXT_CHANGE with a lowest changed address (R37). -/
theorem nextChangeWork_of_some {s : State} {a : Nat} (h : s.lowestChanged = some a) :
    nextChangeWork s =
      { state := s.setStation a { s.station a with changed := false }, code := .ok,
        replies := Replies.of a (s.station a).state.code (s.station a).failCount 0 } := by
  simp only [nextChangeWork, h]

/-- A flag at its place in an event register. -/
theorem flagBit_getLsbD (flag : Bool) {place : Nat} (hplace : place < 8) (i : Nat) :
    (flagBit place flag).getLsbD i = (flag && decide (place = i)) := by
  cases flag with
  | false => simp [flagBit]
  | true =>
    simp only [flagBit, if_true, BitVec.getLsbD_ofNat, Nat.testBit_two_pow, Bool.true_and]
    by_cases hi : place = i
    · simp [← hi, hplace]
    · simp [hi]

/-- STATION_CHANGE stands at bit 4 of EVENTS_A (R156). -/
theorem State.eventsA_getLsbD_four (s : State) : s.eventsA.getLsbD 4 = s.stationChange := by
  simp (disch := decide) only [State.eventsA, BitVec.getLsbD_or, flagBit_getLsbD]
  simp

/-- Settles O28: the lowest changed address is found, and a table whose other flags are clear has none left. -/
theorem nextChangeRule : Obligations.NextChangeRule := by
  intro s code hcode htakes
  have hexec : exec .nextChange s = .next (s.hostCommand 0x0F nextChangeWork) := rfl
  rw [hexec, State.hostCommand_of_takes htakes]
  refine ⟨fun hnone => ?_, fun a hlow hhigh ha hbelow => ⟨?_, fun hlen hothers => ?_⟩⟩
  · rw [nextChangeWork_of_none (s := s.handedOver 0x0F) (State.lowestChanged_eq_none hnone)]
    rfl
  · rw [nextChangeWork_of_some (s := s.handedOver 0x0F) (State.lowestChanged_eq_some hlow hhigh ha hbelow),
      State.setStation_of_pos _ _ hlow, stationCode_eq hcode]
    rfl
  · rw [State.eventsA_getLsbD_four, ← State.setStation_of_pos s _ hlow, State.stationChange, List.any_eq_false]
    intro e he
    obtain ⟨b, hb, hb', rfl⟩ := State.exists_station_of_mem he
    rw [State.setStation_stations_length, hlen] at hb'
    by_cases hba : b = a
    · rw [hba, State.station_setStation_same _ hlow (by omega)]
      exact nofun
    · rw [State.station_setStation_other _ _ hba, hothers b hb hb' hba]
      exact nofun

/-! ## Characters outside a call and an answer (R104, R108) -/

/-- In IDLE, GAP and HOLDOFF a character is a conflict, or a stray that loads the quiet timer again (R104). -/
theorem State.unaskedCharacter_eq (s : State) (c : Delivered) :
    s.unaskedCharacter c = if c.isConflict then s.countConflict.enterHoldoff else s.countStray.reloadQuiet := rfl

/-- A space character is held back outside CALLING, and begins the answer in WAITING only (R106). -/
theorem State.deliver_of_space {s : State} {d : Byte} {m p st : Bool} (hcan : s.receiver.canDeliver = true)
    (hspace : s.rxParity.isSpaceCharacter d m p st = true) (hde : s.de = false) (hw : s.phase ≠ .waiting) :
    s.deliver d m p st = { s with receiver := { s.receiver with inCharacter := none, heldSpace := true } } := by
  rw [State.deliver, if_pos hcan, if_pos (by simp [hspace, hde]), State.holdSpace]
  exact if_neg hw

/-- Settles O41: by mode and phase, then by the sign of another master. -/
theorem charactersOutsideAnAnswer : Obligations.CharactersOutsideAnAnswer := by
  rintro s rx d m p st conflict strays conflicts hs hde hcan rfl hconflict rfl rfl
  have hlive : exec (.characterDelivered d m p st) s = .next (s.deliver d m p st) :=
    exec_of_live (i := .characterDelivered d m p st) (f := (·.deliver d m p st)) rfl hs
  have hsign : (s.judgeSamples d m p st).isConflict = conflict := hconflict.symm
  rw [hlive]
  refine ⟨fun hspace hw => by rw [State.deliver_of_space hcan hspace hde hw], fun hspace => ?_⟩
  rw [State.deliver_of_taken hcan (.inl hspace)]
  have hunasked : s.mode ≠ .stopped → s.phase = .idle ∨ s.phase = .gap ∨ s.phase = .holdoff →
      (s.sampled st).takeCharacter (s.judgeSamples d m p st) =
        if conflict then (s.sampled st).countConflict.enterHoldoff else (s.sampled st).countStray.reloadQuiet := by
    intro hmode hphase
    rw [State.takeCharacter_of_unasked (s := s.sampled st) _ hde hmode hphase, State.unaskedCharacter_eq, hsign]
  have hstopped : s.mode = .stopped → (s.sampled st).takeCharacter (s.judgeSamples d m p st) =
      if conflict then (s.sampled st).countConflict else (s.sampled st).countStray := by
    intro hmode
    rw [State.takeCharacter_of_stopped (s := s.sampled st) _ hde hmode, State.stoppedCharacter, hsign]
  refine ⟨fun hmode hphase hc => ?_, fun hmode hphase hc => ?_, fun hmode hphase hc => ?_, fun hmode hphase hc => ?_,
    fun hmode hc => ?_, fun hmode hc => ?_, fun c hmode hphase hcontext => ⟨fun h0 => ?_, fun h0 => ?_⟩⟩
  · rw [hunasked hmode hphase, if_pos hc]
    rfl
  · rw [hunasked hmode (.inl hphase), if_neg (by simp [hc]),
      State.reloadQuiet_of_idle (s := (s.sampled st).countStray) hphase]
    rfl
  · rw [hunasked hmode (.inr (.inl hphase)), if_neg (by simp [hc]),
      State.reloadQuiet_of_gap (s := (s.sampled st).countStray) hphase]
    rfl
  · rw [hunasked hmode (.inr (.inr hphase)), if_neg (by simp [hc]),
      State.reloadQuiet_of_holdoff (s := (s.sampled st).countStray) hphase]
    rfl
  · rw [hstopped hmode, if_pos hc]
    rfl
  · rw [hstopped hmode, if_neg (by simp [hc])]
    rfl
  · rw [State.takeCharacter_of_settling (s := s.sampled st) _ hde hmode hphase,
      State.lateCharacter_of_broadcast (s := s.sampled st) hphase hcontext h0]
    rfl
  · rw [State.takeCharacter_of_settling (s := s.sampled st) _ hde hmode hphase,
      State.lateCharacter_of_station (s := s.sampled st) hphase hcontext h0, State.setStation_eq s]
    cases c.station <;> rfl

/-! ## Resets (chapter 8.5) -/

/-- Settles O30: each block's values at reset, read off the reset state. -/
theorem resetValues : Obligations.ResetValues := by
  rintro s rfl
  refine ⟨⟨rfl, fun e he => List.eq_of_mem_replicate he⟩, by decide, by decide, by decide, rfl, rfl, by decide, rfl,
    fun b i => rfl, by decide, by decide, by decide, by decide, by decide⟩

/-- Settles O31: each reset step is one row's meaning, made while RESET# allows it. -/
theorem resetSteps : Obligations.ResetSteps := by
  intro s
  refine ⟨fun ⟨hheld, hready⟩ => ?_, rfl, fun _ => rfl, fun hheld => ?_, fun hheld hunit => ?_⟩
  · have hexec : exec .reset s = .next s.resetCommand := rfl
    rw [hexec, State.resetCommand, if_neg (by simp [hheld]), hready]
    rfl
  · have hexec : exec .powerOn s = .next (s.hardReset s.resetHeld) := rfl
    rw [hexec, hheld]
    rfl
  · rw [exec_of_live (i := .initialisationEnd) rfl hheld, State.endInitialisation, hunit]
    rfl

/-- Settles O60: the buffers, the slots, the queue and the line by evaluation, the ranges by the step lemmas' base. -/
theorem resetMeetsInvariants : Obligations.ResetMeetsInvariants := by
  obtain ⟨hstations, hranges⟩ := State.reset.tableOk_iff.1 .reset
  exact ⟨by decide, by decide, by decide, by decide, hstations, hranges, State.recordsOk_reset, rfl⟩

end Sys2Proof.Machine
end

section
/-! SUPPORT. The Request Queue by its classes, and the tickets: a placement adds its record to its class, and the
ticket of a SUBMIT is the first one from the counter on that nothing holds. -/

namespace Sys2Proof.Machine

/-! ## The classes of the queue (R43) -/

/-- The records of the urgent class, in their order. -/
def urgentOf (queue : List Request) : List Request :=
  queue.filter (·.urgent)

/-- The records of the normal class, in their order. -/
def normalOf (queue : List Request) : List Request :=
  queue.filter (!·.urgent)

/-- The urgent records stand ahead of the normal ones. -/
def UrgentFirst (queue : List Request) : Prop :=
  queue.Pairwise fun a b => b.urgent = true → a.urgent = true

/-- A queue in order begins with its urgent class and ends with its normal class. -/
theorem UrgentFirst.takeWhile_dropWhile {queue : List Request} (h : UrgentFirst queue) :
    queue.takeWhile (·.urgent) = urgentOf queue ∧ queue.dropWhile (·.urgent) = normalOf queue := by
  induction queue with
  | nil => exact ⟨rfl, rfl⟩
  | cons r rest ih =>
    obtain ⟨hfirst, hrest⟩ := List.pairwise_cons.1 h
    obtain ⟨htake, hdrop⟩ := ih hrest
    cases hr : r.urgent with
    | true => simpa [urgentOf, normalOf, hr] using ⟨htake, hdrop⟩
    | false =>
      have hnormal : ∀ x ∈ rest, x.urgent = false := fun x hx => by
        by_contra hx'
        exact absurd (hfirst x hx (by simpa using hx')) (by simp [hr])
      have hnone : rest.filter (·.urgent) = [] := List.filter_eq_nil_iff.2 fun x hx => by simp [hnormal x hx]
      have hall : rest.filter (!·.urgent) = rest := List.filter_eq_self.2 fun x hx => by simp [hnormal x hx]
      simp [urgentOf, normalOf, hr, hnone, hall]

/-- A queue in order is its urgent class and then its normal class. -/
theorem UrgentFirst.eq_classes {queue : List Request} (h : UrgentFirst queue) :
    queue = urgentOf queue ++ normalOf queue := by
  obtain ⟨htake, hdrop⟩ := h.takeWhile_dropWhile
  rw [← htake, ← hdrop, List.takeWhile_append_dropWhile]

/-- An urgent class followed by a normal class is in order. -/
theorem urgentFirst_append {urgent normal : List Request} (hu : ∀ r ∈ urgent, r.urgent = true)
    (hn : ∀ r ∈ normal, r.urgent = false) : UrgentFirst (urgent ++ normal) := by
  refine List.pairwise_append.2 ⟨?_, ?_, fun a ha b _ _ => hu a ha⟩
  · exact List.pairwise_of_forall_mem_list fun a ha b _ _ => hu a ha
  · exact List.pairwise_of_forall_mem_list fun a _ b hb h => absurd (hn b hb) (by simp [h])

/-- A placement at the tail of a class, by the classes. -/
theorem placeAtTail_eq {queue : List Request} (h : UrgentFirst queue) (r : Request) :
    placeAtTail queue r =
      urgentOf queue ++ (if r.urgent then r :: normalOf queue else normalOf queue ++ [r]) := by
  obtain ⟨htake, hdrop⟩ := h.takeWhile_dropWhile
  unfold placeAtTail
  split
  · rw [htake, hdrop]
  · rw [← List.append_assoc, ← h.eq_classes]

/-- A placement at the head of a class, by the classes. -/
theorem placeAtHead_eq {queue : List Request} (h : UrgentFirst queue) (r : Request) :
    placeAtHead queue r = if r.urgent then r :: queue else urgentOf queue ++ r :: normalOf queue := by
  obtain ⟨htake, hdrop⟩ := h.takeWhile_dropWhile
  rw [placeAtHead, htake, hdrop]

/-- A placement at the tail of a class keeps the order. -/
theorem UrgentFirst.placeAtTail {queue : List Request} (h : UrgentFirst queue) (r : Request) :
    UrgentFirst (placeAtTail queue r) := by
  rw [placeAtTail_eq h]
  split
  · rw [← List.singleton_append, ← List.append_assoc]
    exact urgentFirst_append (by simp_all [urgentOf, or_imp]) (by simp [normalOf])
  · exact urgentFirst_append (by simp [urgentOf]) (by simp_all [normalOf, or_imp])

/-- A placement at the head of a class keeps the order. -/
theorem UrgentFirst.placeAtHead {queue : List Request} (h : UrgentFirst queue) (r : Request) :
    UrgentFirst (placeAtHead queue r) := by
  rw [placeAtHead_eq h]
  split
  · exact List.pairwise_cons.2 ⟨fun _ _ _ => ‹_›, h⟩
  · exact urgentFirst_append (by simp [urgentOf]) (by simp_all [normalOf])

/-- A placement at the tail of a class adds the one record. -/
theorem placeAtTail_perm (queue : List Request) (r : Request) : (placeAtTail queue r).Perm (r :: queue) := by
  unfold placeAtTail
  split
  · have h := List.perm_middle (a := r) (l₁ := queue.takeWhile (·.urgent)) (l₂ := queue.dropWhile (·.urgent))
    rwa [List.takeWhile_append_dropWhile] at h
  · exact List.perm_append_singleton ..

/-- A placement at the head of a class adds the one record. -/
theorem placeAtHead_perm (queue : List Request) (r : Request) : (placeAtHead queue r).Perm (r :: queue) := by
  unfold placeAtHead
  split
  · rfl
  · have h := List.perm_middle (a := r) (l₁ := queue.takeWhile (·.urgent)) (l₂ := queue.dropWhile (·.urgent))
    rwa [List.takeWhile_append_dropWhile] at h

/-! ## Tickets (R44) -/

/-- A ticket is in use exactly when it is outstanding. -/
theorem State.ticketInUse_iff (s : State) (t : Nat) : s.ticketInUse t = true ↔ t ∈ s.tickets := by
  simp only [State.ticketInUse, State.tickets, State.flightTicket, Bool.or_eq_true, List.any_eq_true, beq_iff_eq,
    List.mem_append, List.mem_map]
  refine or_congr_right ?_
  cases s.context with
  | none => simp
  | some c => by_cases ho : c.origin = .request <;> simp [ho, eq_comm (a := c.ticket)]

/-- The ticket that stands `k` places after `t`, counting 1, 2, …, 255, 1. -/
def ticketFrom (t k : Nat) : Nat :=
  (t - 1 + k) % 255 + 1

/-- The count begins at the ticket itself. -/
theorem ticketFrom_zero {t : Nat} (ht : 1 ≤ t ∧ t ≤ 255) : ticketFrom t 0 = t := by
  unfold ticketFrom
  omega

/-- The count goes on from the ticket after. -/
theorem ticketFrom_nextTicket {t : Nat} (ht : 1 ≤ t ∧ t ≤ 255) (k : Nat) :
    ticketFrom (nextTicket t) k = ticketFrom t (k + 1) := by
  unfold ticketFrom nextTicket
  split <;> omega

/-- The search for a ticket passes over tickets in use, and ends at the first that is free, or with its fuel. -/
theorem State.freeTicket_eq_ticketFrom (s : State) (fuel : Nat) {t : Nat} (ht : 1 ≤ t ∧ t ≤ 255) :
    ∃ k ≤ fuel, s.freeTicket fuel t = ticketFrom t k ∧ (∀ j < k, ticketFrom t j ∈ s.tickets) ∧
      (k < fuel → ticketFrom t k ∉ s.tickets) := by
  induction fuel generalizing t with
  | zero => exact ⟨0, le_rfl, (ticketFrom_zero ht).symm, nofun, nofun⟩
  | succ n ih =>
    unfold State.freeTicket
    cases huse : s.ticketInUse t with
    | true =>
      obtain ⟨k, hk, heq, hheld, hfree⟩ := ih (nextTicket_range t)
      simp only [ticketFrom_nextTicket ht] at heq hheld hfree
      refine ⟨k + 1, by omega, heq, fun j hj => ?_, fun hlt => hfree (by omega)⟩
      cases j with
      | zero =>
        rw [ticketFrom_zero ht]
        exact (s.ticketInUse_iff t).1 huse
      | succ j => exact hheld j (by omega)
    | false =>
      refine ⟨0, Nat.zero_le _, (ticketFrom_zero ht).symm, nofun, fun _ h => ?_⟩
      rw [ticketFrom_zero ht, ← s.ticketInUse_iff, huse] at h
      cases h

/-- Fewer than 255 outstanding tickets leave one of the 255 free. -/
theorem State.exists_ticketFrom_not_mem (s : State) (hlen : s.tickets.length < 255) (t : Nat) :
    ∃ k < 255, ticketFrom t k ∉ s.tickets := by
  by_contra! hall
  have hnodup : ((List.range 255).map (ticketFrom t)).Nodup := by
    refine List.Nodup.map_on (fun a ha b hb hab => ?_) List.nodup_range
    have ha := List.mem_range.1 ha
    have hb := List.mem_range.1 hb
    simp only [ticketFrom] at hab
    omega
  have hsub : (List.range 255).map (ticketFrom t) ⊆ s.tickets := fun x hx => by
    obtain ⟨k, hk, rfl⟩ := List.mem_map.1 hx
    exact hall k (List.mem_range.1 hk)
  have := (hnodup.subperm hsub).length_le
  simp only [List.length_map, List.length_range] at this
  omega

/-- The tickets outstanding are those of the queue and at most one more. -/
theorem State.tickets_length_le (s : State) : s.tickets.length ≤ s.queue.length + 1 := by
  simp only [State.tickets, State.flightTicket, List.length_append, List.length_map]
  split
  · split <;> simp
  · simp

/-- The ticket that a SUBMIT assigns: the first one from the counter on that is not outstanding. -/
theorem State.freeTicket_spec {s : State} (hlen : s.queue.length ≤ 16) {t : Nat} (ht : 1 ≤ t ∧ t ≤ 255) :
    ∃ k < 255, s.freeTicket 255 t = ticketFrom t k ∧ ticketFrom t k ∉ s.tickets ∧
      ∀ j < k, ticketFrom t j ∈ s.tickets := by
  obtain ⟨k, hk, heq, hheld, hfree⟩ := s.freeTicket_eq_ticketFrom 255 ht
  obtain ⟨j, hj, hjfree⟩ :=
    s.exists_ticketFrom_not_mem (by have := s.tickets_length_le; omega) t
  have hkj : k ≤ j := by
    by_contra hlt
    exact hjfree (hheld j (by omega))
  exact ⟨k, by omega, heq, hfree (by omega), hheld⟩

/-- The ticket that a SUBMIT assigns is not outstanding. -/
theorem State.freeTicket_not_mem {s : State} (h : s.TicketsOk) : s.freeTicket 255 s.ticketCounter ∉ s.tickets := by
  obtain ⟨hlen, -, -, hcounter⟩ := h
  obtain ⟨k, -, heq, hfree, -⟩ := State.freeTicket_spec hlen hcounter
  rwa [heq]

/-- Settles O13: the search ends within its 255 steps, since at most 17 tickets are outstanding; a ticket that stands
before the one assigned was passed over. -/
theorem ticketIsFirstFree : Obligations.TicketIsFirstFree := by
  rintro s ticket ⟨hlen, -, -, hcounter⟩ - rfl
  obtain ⟨k, hk, heq, hfree, hheld⟩ := State.freeTicket_spec hlen hcounter
  have hrange := s.freeTicket_range 255 hcounter
  refine ⟨hrange.1, hrange.2, heq ▸ hfree, fun u hlow hhigh hbefore => ?_⟩
  have hplace : u = ticketFrom s.ticketCounter ((u + 255 - s.ticketCounter) % 255) := by
    unfold ticketFrom
    omega
  rw [hplace]
  refine hheld _ ?_
  rw [heq] at hbefore
  unfold ticketFrom at hbefore
  omega

end Sys2Proof.Machine
end

section
/-! SUPPORT. What a step does to tickets, slots and buffers, said once: it is a chain of the moves below. An invariant of
the records, the transaction in flight and the buffer pool is kept by every step as soon as each move keeps it. -/

namespace Sys2Proof.Machine

/-! ## Holdings -/

/-- What a context holds: a ticket, if it is a request's, and its two buffers. -/
def Context.holding (c : Context) : TransactionOrigin × Nat × Option Nat × Option Nat :=
  (c.origin, c.ticket, c.outBuffer, c.answerBuffer)

/-- The buffer pool, the queues, the reserved slot, and what the context holds. -/
def State.holdings (s : State) :
    List Ownership × List Nat × List Request × Nat × List ResultRecord × Bool ×
      Option (TransactionOrigin × Nat × Option Nat × Option Nat) :=
  (s.owners, s.freeList, s.queue, s.ticketCounter, s.results, s.reserved, s.context.map Context.holding)

/-- `t` holds what `s` holds, and is in initialisation only where `s` is, STOPPED staying STOPPED there. -/
def State.HoldsAs (s t : State) : Prop :=
  t.holdings = s.holdings ∧
  (t.unit = .initialising → s.unit = .initialising ∧ (s.mode = .stopped → t.mode = .stopped))

/-- A change of neither holdings, Command Unit nor mode. -/
theorem State.HoldsAs.of_eq {s t : State} (h : t.holdings = s.holdings) (hunit : t.unit = s.unit)
    (hmode : t.mode = s.mode) : s.HoldsAs t :=
  ⟨h, fun hinit => ⟨hunit ▸ hinit, fun hstopped => hmode.trans hstopped⟩⟩

/-- A change that leaves the mode STOPPED. -/
theorem State.HoldsAs.of_stopped {s t : State} (h : t.holdings = s.holdings) (hunit : t.unit = s.unit)
    (hmode : t.mode = .stopped) : s.HoldsAs t :=
  ⟨h, fun hinit => ⟨hunit ▸ hinit, fun _ => hmode⟩⟩

/-- A change that leaves no initialisation in progress. -/
theorem State.HoldsAs.of_not_initialising {s t : State} (h : t.holdings = s.holdings) (hunit : t.unit ≠ .initialising) :
    s.HoldsAs t :=
  ⟨h, fun hinit => absurd hinit hunit⟩

/-- A state holds what it holds. -/
theorem State.HoldsAs.refl (s : State) : s.HoldsAs s := .of_eq rfl rfl rfl

/-- A change of the context's progress. -/
theorem State.HoldsAs.replace {s : State} {c c' : Context} (hc : s.context = some c) (h : c'.holding = c.holding) :
    s.HoldsAs { s with context := some c' } :=
  .of_eq (by simp [State.holdings, hc, h]) rfl rfl

/-- A change of the Station Table. -/
theorem State.HoldsAs.setStation (s : State) (a : Nat) (e : Station) : s.HoldsAs (s.setStation a e) := by
  rw [State.setStation_eq]
  exact .of_eq rfl rfl rfl

/-- The end of a drain. -/
theorem State.HoldsAs.endDrain (s : State) : s.HoldsAs s.endDrain := by
  rcases s.endDrain_cases with ⟨-, -, heq⟩ | ⟨-, heq⟩ <;> rw [heq]
  · exact .of_stopped rfl rfl rfl
  · exact .refl s

/-! ## The moves -/

/-- A change of what the part holds, one constructor per kind, with what the part has found when it makes it. -/
inductive State.Move (s : State) : State → Prop
  | hold {t : State} (h : s.HoldsAs t) : s.Move t
  | allocate : s.Move (s.takeHead .host)
  | release (b : Nat) : s.Move (s.changeOwner b .host .free)
  | enqueue (a : Args) (hunit : s.unit = .ready) (hbuffer : s.submitBufferOk a = true) (hspace : s.queue.length < 16) :
      s.Move (s.enqueue a)
  | dequeue (r : Request) (hr : r ∈ s.queue) :
      s.Move ((s.removeRequest r.ticket).changeOwner? r.outBuffer .queued .free)
  | handOver (r : ResultRecord) (rest : List ResultRecord) (shown : Taken) (hr : s.results = r :: rest) :
      s.Move (({ s with results := rest, taken := shown } : State).changeOwner? r.buffer .result .host)
  | close (c : Context) (record : Option ResultRecord) (clearSync : Bool) (hc : s.context = some c)
      (hrecord : ∀ r ∈ record, r.buffer = none ∨ r.buffer = c.answerBuffer) : s.Move (s.close c record clearSync)
  | busyReturn (c : Context) (hc : s.context = some c) (ho : c.origin = .request) (hspace : s.queue.length < 16) :
      s.Move (s.busyReturn c)
  | complete (r : Request) (hr : r ∈ s.queue) (hidle : s.context = none) (hslot : s.results.length < 24) :
      s.Move (s.completeAtDispatch r)
  | dispatchRequest (r : Request) (hr : r ∈ s.queue) (hidle : s.context = none) (hslot : s.results.length < 24) :
      s.Move (s.dispatchRequest r)
  | dispatchPoll (a : Nat) (hmode : s.mode = .running) (hidle : s.context = none) (hslot : s.results.length < 24) :
      s.Move (s.dispatchPoll a)
  | endHolds (ended : Request → Bool) :
      s.Move { s with queue := s.queue.map fun r => if ended r then { r with holdUntil := none } else r }
  | reset {t : State} (h : State.reset.HoldsAs t) : s.Move t
  | endInitialisation : s.Move s.endInitialisation

/-- A chain of moves. -/
def State.MovesTo (s t : State) : Prop :=
  Relation.ReflTransGen State.Move s t

/-- No move. -/
theorem State.MovesTo.refl (s : State) : s.MovesTo s :=
  Relation.ReflTransGen.refl

/-- One move. -/
theorem State.Move.to {s t : State} (h : s.Move t) : s.MovesTo t :=
  Relation.ReflTransGen.single h

/-- One chain after another. -/
theorem State.MovesTo.trans {s t u : State} (h : s.MovesTo t) (h' : t.MovesTo u) : s.MovesTo u :=
  Relation.ReflTransGen.trans h h'

/-- A change of what is not held. -/
theorem State.HoldsAs.to {s t : State} (h : s.HoldsAs t) : s.MovesTo t :=
  (State.Move.hold h).to

/-- A chain, and then a change of neither holdings, Command Unit nor mode. -/
theorem State.MovesTo.andHolds {s t u : State} (h : s.MovesTo t) (heq : u.holdings = t.holdings)
    (hunit : u.unit = t.unit) (hmode : u.mode = t.mode) : s.MovesTo u :=
  h.trans (State.HoldsAs.of_eq heq hunit hmode).to

/-- What every move keeps, a chain keeps. -/
theorem State.MovesTo.keeps {P : State → Prop} {s t : State} (h : s.MovesTo t) (hs : P s)
    (hmove : ∀ s t : State, s.Move t → P s → P t) : P t := by
  induction h with
  | refl => exact hs
  | tail _ hlast ih => exact hmove _ _ hlast ih

/-! ## The shared operations -/

/-- A chain, and then the end of a drain (R145). -/
theorem State.MovesTo.endDrain {s t : State} (h : s.MovesTo t) : s.MovesTo t.endDrain :=
  h.trans (State.HoldsAs.endDrain t).to

/-- A chain, and then the mode STOPPED (R142). -/
theorem State.MovesTo.becomeStopped {s t : State} (h : s.MovesTo t) : s.MovesTo t.becomeStopped :=
  h.trans (State.HoldsAs.to (.of_stopped rfl rfl rfl))

/-- A chain, and then IDLE. -/
theorem State.MovesTo.enterIdle {s t : State} (h : s.MovesTo t) : s.MovesTo t.enterIdle :=
  h.andHolds rfl rfl rfl

/-- A chain, and then HOLDOFF (R105). -/
theorem State.MovesTo.enterHoldoff {s t : State} (h : s.MovesTo t) : s.MovesTo t.enterHoldoff :=
  h.andHolds rfl rfl rfl

/-- A change of the receiver (R4). -/
theorem State.receiver_moves (s : State) (r : Receiver) : s.MovesTo { s with receiver := r } :=
  (State.MovesTo.refl s).andHolds rfl rfl rfl

/-- The look of the Dispatcher (R57 to R64). -/
theorem State.look_moves (s : State) : s.MovesTo s.look := by
  have hidle : ∀ x : State, x.canLook = true → x.mode = .running ∧ x.context = none := fun x hx => by
    simp only [State.canLook, Bool.and_eq_true, beq_iff_eq, Option.isNone_iff_eq_none] at hx
    exact ⟨hx.1.1, hx.2⟩
  refine State.look_keeps (P := s.MovesTo) (.refl s) (fun x hx => ?_) (fun x hx _ => ?_)
    (fun x r hx hcan hslot hr _ _ => ?_) (fun x r hx hcan hslot hr _ _ => ?_)
    (fun x a hx hcan hslot _ _ _ _ => ?_)
  · exact hx.andHolds rfl rfl rfl
  · rw [State.stalledLook_frame]
    exact hx.andHolds rfl rfl rfl
  · exact hx.trans (State.Move.complete r hr (hidle x hcan).2 hslot).to
  · exact hx.trans (State.Move.dispatchRequest r hr (hidle x hcan).2 hslot).to
  · exact hx.trans (State.Move.dispatchPoll a (hidle x hcan).1 (hidle x hcan).2 hslot).to

/-- A chain, and then a look (R57). -/
theorem State.MovesTo.look {s t : State} (h : s.MovesTo t) : s.MovesTo t.look :=
  h.trans t.look_moves

/-- An early closing (R52, R80, R91, R146). -/
theorem State.closeEarly_moves {s : State} {c : Context} (hc : s.context = some c) (outcome : ResultOutcome)
    (cancelRequested taken : Bool) : s.MovesTo (s.closeEarly c outcome cancelRequested taken) := by
  obtain ⟨record, clear, heq, hrecord⟩ := s.closeEarly_eq_close c outcome cancelRequested taken
  rw [heq]
  refine (State.Move.close c record clear hc ?_).to
  rintro r ⟨⟩
  exact .inl hrecord

/-- The context of a transaction that has met one more collision (R91). -/
def Context.collided (c : Context) : Context :=
  { c with collisions := c.collisions + 1 }

/-- The part that has released the line after a collision and waits in HOLDOFF (R91). -/
def State.collisionHeld (s : State) (c : Context) : State :=
  ({ s.releaseLine with context := some c.collided } : State).enterHoldoff

/-- The fourth collision is a conflict, raised and counted (R91). -/
def State.collisionRaised (s : State) (c : Context) : State :=
  { (s.collisionHeld c).raise .conflict with conflicts := satInc Config.lineCounterCap s.conflicts }

/-- The fourth collision ends the transaction (R91). -/
theorem State.collide_of_limit {s : State} {c : Context} (hc : s.context = some c) (h : 4 ≤ c.collisions + 1) :
    s.collide = ((s.collisionRaised c).closeEarly c.collided c.limitOutcome false true).endDrain := by
  simp only [State.collide, hc]
  exact if_pos h

/-- Below the fourth collision a pending cancel ends the transaction (R54, R91). -/
theorem State.collide_of_cancel {s : State} {c : Context} (hc : s.context = some c) (h : c.collisions + 1 < 4)
    (hcancel : c.cancelPending = true) :
    s.collide = ((s.collisionHeld c).closeEarly c.collided .cancelled false true).endDrain := by
  simp only [State.collide, hc]
  exact (if_neg (Nat.not_le.2 h)).trans (if_pos hcancel)

/-- Below the fourth collision, with no cancel pending, the transaction waits to be resent (R91). -/
theorem State.collide_of_resend {s : State} {c : Context} (hc : s.context = some c) (h : c.collisions + 1 < 4)
    (hcancel : c.cancelPending = false) : s.collide = s.collisionHeld c := by
  simp only [State.collide, hc]
  exact (if_neg (Nat.not_le.2 h)).trans (if_neg (by simp [hcancel]))

/-- A collision (R91). -/
theorem State.collide_moves (s : State) : s.MovesTo s.collide := by
  cases hc : s.context with
  | none =>
    have hnothing : s.collide = s := by simp only [State.collide, hc]
    rw [hnothing]
    exact .refl s
  | some c =>
    have hcounted : s.HoldsAs { s with context := some c.collided } := .replace hc rfl
    have hheld : s.MovesTo (s.collisionHeld c) := hcounted.to.andHolds rfl rfl rfl
    have hraised : s.MovesTo (s.collisionRaised c) := hheld.andHolds rfl rfl rfl
    by_cases hlimit : 4 ≤ c.collisions + 1
    · rw [State.collide_of_limit hc hlimit]
      exact (hraised.trans (State.closeEarly_moves rfl ..)).endDrain
    · cases hcancel : c.cancelPending with
      | true =>
        rw [State.collide_of_cancel hc (by omega) hcancel]
        exact (hheld.trans (State.closeEarly_moves rfl ..)).endDrain
      | false =>
        rw [State.collide_of_resend hc (by omega) hcancel]
        exact hheld

/-! ## The decision on an attempt (R99, R100) -/

section Decisions

variable {s : State} {c : Context} (hc : s.context = some c)
include hc

/-- The ending of a request or broadcast (R100, R102). -/
theorem State.endRequest_moves {r : ResultRecord} (hr : r.buffer = none ∨ r.buffer = c.answerBuffer) :
    s.MovesTo (s.endRequest c r) := by
  refine (State.Move.close c (some r) _ hc ?_).to
  rintro x ⟨⟩
  exact hr

/-- A valid BUSY answer (R65, R66). -/
theorem State.decideBusy_moves (ho : c.origin = .request) : s.MovesTo (s.decideBusy c) := by
  unfold State.decideBusy
  split
  · exact State.endRequest_moves hc (.inl rfl)
  · split
    · rename_i hremain
      exact (State.Move.busyReturn c hc ho hremain.2).to
    · exact State.endRequest_moves hc (.inl rfl)

/-- A failed attempt of a request (R100, R101). -/
theorem State.decideFailure_moves (outcome : ResultOutcome) (lost : Bool) :
    s.MovesTo (s.decideFailure c outcome lost) := by
  unfold State.decideFailure
  split
  · exact State.endRequest_moves hc (.inl rfl)
  · split
    · exact State.endRequest_moves hc (.inl rfl)
    · split
      · exact State.HoldsAs.to (.replace hc rfl)
      · exact State.endRequest_moves hc (.inl rfl)

/-- The decision on a request (R100, R103). -/
theorem State.decideRequest_moves (ho : c.origin = .request) (v : Verdict) (lost : Bool) :
    s.MovesTo (s.decideRequest c v lost) := by
  unfold State.decideRequest
  split
  · exact State.endRequest_moves hc (.inl rfl)
  · exact State.endRequest_moves hc (.inr rfl)
  · exact State.endRequest_moves hc (.inl rfl)
  · exact State.decideBusy_moves hc ho
  all_goals exact State.decideFailure_moves hc _ lost

/-- A poll or probe that ends with nothing posted (R77, R79). -/
theorem State.closeSilently_moves : s.MovesTo (s.close c none false) :=
  (State.Move.close c none false hc (by simp)).to

/-- The decision on a poll or a probe (R77 to R79). -/
theorem State.decidePoll_moves (v : Verdict) : s.MovesTo (s.decidePoll c v) := by
  unfold State.decidePoll State.judgeReport
  split
  · dsimp only
    split
    · refine (State.HoldsAs.setStation s _ _).to.trans (State.Move.close c _ _ (by simpa using hc) ?_).to
      rintro r ⟨⟩
      exact .inr rfl
    · exact (State.HoldsAs.setStation s _ _).to.trans (State.closeSilently_moves (by simpa using hc))
  all_goals exact State.closeSilently_moves hc

end Decisions

/-- A verdict takes effect (R99). -/
theorem State.takeVerdict_moves (s : State) : s.MovesTo s.takeVerdict := by
  rcases s.takeVerdict_cases with heq | ⟨c, hc, ⟨h0, -⟩ | ⟨v, -, -, ⟨ho, lost, heq⟩ | ⟨-, heq⟩⟩⟩
  · rw [heq]
    exact .refl s
  · rw [State.takeVerdict_of_broadcast hc h0]
    refine (State.Move.close c _ _ hc ?_).to
    rintro r ⟨⟩
    exact .inl rfl
  · rw [heq]
    exact (State.HoldsAs.setStation s _ _).to.trans (State.decideRequest_moves (by simpa using hc) ho v lost)
  · rw [heq]
    exact (State.HoldsAs.setStation s _ _).to.trans (State.decidePoll_moves (by simpa using hc) v)

end Sys2Proof.Machine
end

section
/-! SUPPORT. Every row is a chain of moves: the sending of a call, the answer, the commands, then the rows in the table's
order. -/

namespace Sys2Proof.Machine

/-! ## The transaction in flight goes on -/

/-- A context that is mapped to one that holds the same. -/
theorem Context.map_holding {f : Context → Context} (hf : ∀ c, (f c).holding = c.holding) (context : Option Context) :
    (context.map f).map Context.holding = context.map Context.holding := by
  cases context with
  | none => rfl
  | some c => exact congrArg some (hf c)

/-- The first start bit of a call (R16, R89). -/
theorem State.beginCall_moves (s : State) : s.MovesTo s.beginCall := by
  cases hc : s.context with
  | none =>
    have hnothing : s.beginCall = s := by simp only [State.beginCall, hc]
    rw [hnothing]
    exact .refl s
  | some c =>
    rw [State.beginCall_eq hc rfl]
    exact (State.HoldsAs.to (.replace hc rfl)).andHolds rfl rfl rfl

/-- The end of GAP (R88). -/
theorem State.enterCalling_moves (s : State) : s.MovesTo s.enterCalling := by
  have hlead : s.MovesTo s.leadBegun := (State.MovesTo.refl s).andHolds rfl rfl rfl
  unfold State.enterCalling
  dsimp only
  split
  · exact hlead.trans (State.beginCall_moves _)
  · exact hlead

/-- A complete call (R89). -/
theorem State.completeCall_moves (s : State) : s.MovesTo s.completeCall := by
  cases hc : s.context with
  | none =>
    have hnothing : s.completeCall = s := by simp only [State.completeCall, hc]
    rw [hnothing]
    exact .refl s
  | some c =>
    have hcounted : s.HoldsAs { s with context := some { c with attempts := c.attempts + 1 } } := .replace hc rfl
    by_cases h0 : c.station = 0
    · rw [State.completeCall_of_broadcast hc h0]
      exact hcounted.to.andHolds rfl rfl rfl
    · rw [State.completeCall_of_station hc h0]
      exact hcounted.to.andHolds rfl rfl rfl

/-- The end of a sent character (R89). -/
theorem State.sendNext_moves (s : State) (i : Nat) : s.MovesTo (s.sendNext i) := by
  have htrail : s.MovesTo s.trailBegun := (State.MovesTo.refl s).andHolds rfl rfl rfl
  unfold State.sendNext
  split
  · exact .refl s
  · dsimp only
    split
    · exact (State.MovesTo.refl s).andHolds rfl rfl rfl
    · split
      · exact htrail.trans (State.completeCall_moves _)
      · exact htrail

/-- The beginning of an answer (R94). -/
theorem State.beginReception_moves (s : State) : s.MovesTo s.beginReception := by
  rw [State.beginReception_eq]
  exact (State.MovesTo.refl s).andHolds rfl rfl rfl

/-- A character of an answer (R94, R95, R97). -/
theorem State.answerCharacter_moves (s : State) (d : Delivered) : s.MovesTo (s.answerCharacter d) := by
  cases hc : s.context with
  | none =>
    have hnothing : s.answerCharacter d = s := by simp only [State.answerCharacter, hc]
    rw [hnothing]
    exact .refl s
  | some c =>
    cases hv : c.verdict with
    | some v =>
      rw [State.answerCharacter_of_failed d hc (by simp [hv])]
      exact (State.MovesTo.refl s).andHolds rfl rfl rfl
    | none =>
      cases hx : s.reception.failure c d with
      | some x =>
        have hfailed : s.HoldsAs { s with context := some (c.fail x) } := .replace hc rfl
        rw [State.answerCharacter_of_failure hc hv hx]
        exact hfailed.to.andHolds rfl rfl rfl
      | none =>
        by_cases hmore : s.reception.taken < 3 ∨ s.reception.taken < s.reception.length + 4
        · rw [State.answerCharacter_of_kept hc hv hx hmore]
          split
          · rw [State.storePayload_frame]
            exact (State.MovesTo.refl s).andHolds rfl rfl rfl
          · exact (State.MovesTo.refl s).andHolds rfl rfl rfl
        · have hjudged : s.HoldsAs { s with context := some (c.judge (s.reception.close c.kind d.data)) } :=
            .replace hc rfl
          rw [State.answerCharacter_of_checkB hc hv hx (by omega) (by omega)]
          exact hjudged.to.andHolds rfl rfl rfl

/-- A late character (R98). -/
theorem State.lateCharacter_moves (s : State) : s.MovesTo s.lateCharacter := by
  unfold State.lateCharacter
  split
  · exact .refl s
  · dsimp only
    split
    · exact (State.MovesTo.refl s).andHolds rfl rfl rfl
    · exact (State.HoldsAs.setStation s _ _).to.andHolds rfl rfl rfl

/-- A character that was not asked for (R104). -/
theorem State.unaskedCharacter_moves (s : State) (d : Delivered) : s.MovesTo (s.unaskedCharacter d) := by
  unfold State.unaskedCharacter State.reloadQuiet
  split
  · exact (State.MovesTo.refl s).andHolds rfl rfl rfl
  · split <;> exact (State.MovesTo.refl s).andHolds rfl rfl rfl

/-- A delivered character (R4). -/
theorem State.takeCharacter_moves (s : State) (d : Delivered) : s.MovesTo (s.takeCharacter d) := by
  unfold State.takeCharacter State.echoCheck State.stoppedCharacter
  split
  · split
    · split
      · exact (State.MovesTo.refl s).andHolds rfl rfl rfl
      · exact s.collide_moves
    all_goals exact s.collide_moves
  · split
    · split <;> exact (State.MovesTo.refl s).andHolds rfl rfl rfl
    · split
      · exact s.unaskedCharacter_moves d
      · exact s.unaskedCharacter_moves d
      · exact s.unaskedCharacter_moves d
      · exact s.beginReception_moves.trans (State.answerCharacter_moves _ d)
      · exact s.answerCharacter_moves d
      · exact s.lateCharacter_moves
      · exact .refl s

/-- The receiver takes a stop bit (R4, R106). -/
theorem State.deliver_moves (s : State) (data : Byte) (mark parity stop : Bool) :
    s.MovesTo (s.deliver data mark parity stop) := by
  unfold State.deliver State.holdSpace
  split
  · split
    · dsimp only
      split
      · exact (s.receiver_moves _).trans (State.beginReception_moves _)
      · exact s.receiver_moves _
    · exact (s.receiver_moves _).trans (State.takeCharacter_moves _ _)
  · exact .refl s

/-- A confirmed start bit (R4, R93). -/
theorem State.startCharacter_moves (s : State) : s.MovesTo s.startCharacter := by
  unfold State.startCharacter
  split
  · dsimp only
    split
    · exact (s.receiver_moves _).trans (State.beginReception_moves _)
    · exact s.receiver_moves _
  · exact .refl s

/-- The end of a held-back space (R106). -/
theorem State.releaseSpace_moves (s : State) : s.MovesTo s.releaseSpace := by
  unfold State.releaseSpace
  split
  · exact (s.receiver_moves _).trans (State.takeCharacter_moves _ _)
  · exact .refl s

/-- A break that cuts an answer short (R107). -/
theorem State.breakReception_moves (s : State) : s.MovesTo s.breakReception := by
  unfold State.breakReception
  split
  · exact .refl s
  · rename_i c hc
    split
    · exact .refl s
    · exact State.HoldsAs.to (.replace hc rfl)

/-- A break is detected (R106, R107). -/
theorem State.detectBreak_moves (s : State) : s.MovesTo s.detectBreak := by
  have hbroken : s.MovesTo (State.raise { s with
      breaks := satInc Config.lineCounterCap s.breaks
      receiver := { inCharacter := none, heldSpace := false, awaitMark := true, lineInBreak := true } } .lineBreak) :=
    (State.MovesTo.refl s).andHolds rfl rfl rfl
  unfold State.detectBreak
  split
  · exact .refl s
  · dsimp only
    split
    · exact hbroken.trans (State.collide_moves _)
    · exact (hbroken.trans (State.beginReception_moves _)).trans (State.breakReception_moves _)
    · exact hbroken.trans (State.breakReception_moves _)
    all_goals exact hbroken

/-- A break ends (R107). -/
theorem State.endBreak_moves (s : State) : s.MovesTo s.endBreak := by
  have hready := s.receiver_moves Receiver.ready
  have hdecided : s.MovesTo (State.takeVerdict { s with receiver := Receiver.ready }).enterHoldoff.endDrain :=
    (hready.trans (State.takeVerdict_moves _)).enterHoldoff.endDrain
  unfold State.endBreak
  split
  · dsimp only
    split
    · exact hready
    · split
      · exact hready.enterHoldoff
      · exact hready.enterHoldoff
      · exact hready.enterHoldoff
      · exact hdecided
      · exact hdecided
      · exact hready.trans (State.collide_moves _)
      · exact hready
  · exact .refl s

/-! ## Timers and ticks -/

/-- The answer timer (R93). -/
theorem State.answerTimerEnd_moves (s : State) : s.MovesTo s.answerTimerEnd := by
  unfold State.answerTimerEnd
  split
  · refine State.HoldsAs.to (.of_eq ?_ rfl rfl)
    have hjudge := Context.map_holding (f := (Context.judge · .noAnswer)) (fun _ => rfl) s.context
    simp [State.holdings, hjudge]
  · exact .refl s

/-- The character-gap timer (R96, R97). -/
theorem State.characterGapEnd_moves (s : State) : s.MovesTo s.characterGapEnd := by
  unfold State.characterGapEnd
  split
  · refine State.HoldsAs.to (.of_eq ?_ rfl rfl)
    have hfail := Context.map_holding (f := fun c => if c.verdict.isSome then c else c.fail .truncated)
      (fun c => by split <;> rfl) s.context
    simp [State.holdings, hfail]
  · exact .refl s

/-- The settle timer (R99, R101, R102). -/
theorem State.settleEnd_moves (s : State) : s.MovesTo s.settleEnd := by
  have htaken := s.takeVerdict_moves
  unfold State.settleEnd
  split
  · dsimp only
    split
    · exact htaken.andHolds rfl rfl rfl
    · exact htaken.enterIdle.endDrain.look
  · exact .refl s

/-- The holdoff timer (R105). -/
theorem State.holdoffEnd_moves (s : State) : s.MovesTo s.holdoffEnd := by
  unfold State.holdoffEnd
  split
  · split
    · exact (State.MovesTo.refl s).andHolds rfl rfl rfl
    · exact (State.MovesTo.refl s).enterIdle.look
  · exact .refl s

/-- A 10 ms tick (R71). -/
theorem State.tick10_moves (s : State) : s.MovesTo s.tick10 := by
  rw [State.tick10_frame]
  exact (State.MovesTo.refl s).andHolds rfl rfl rfl

/-- A 100 ms tick (R72). -/
theorem State.tick100_moves (s : State) : s.MovesTo s.tick100 := by
  rw [State.tick100_frame]
  exact (State.MovesTo.refl s).andHolds rfl rfl rfl

/-- A rise of the time counter (R151). -/
theorem State.tick_moves (s : State) : s.MovesTo s.tick :=
  (s.tick10_moves.trans (State.tick100_moves _)).andHolds rfl rfl rfl

/-- The holds that end (R67). -/
theorem State.endHolds_moves (s : State) : s.MovesTo s.endHolds := by
  unfold State.endHolds
  split
  · exact (State.Move.endHolds s.holdReached).to.look
  · exact .refl s

/-! ## The work of the commands -/

/-- A command that does not change what the part holds. -/
theorem State.MovesTo.of_holdings {s t : State} (hready : s.unit = .ready) (hunit : t.unit = s.unit)
    (h : t.holdings = s.holdings) : s.MovesTo t :=
  (State.HoldsAs.of_not_initialising h (by simp [hunit, hready])).to

/-- ALLOCATE (R119). -/
theorem allocateWork_moves (s : State) : s.MovesTo (allocateWork s).state := by
  unfold allocateWork
  split
  · exact .refl s
  · exact State.Move.allocate.to

/-- RELEASE (R119). -/
theorem releaseWork_moves (s : State) : s.MovesTo (releaseWork s).state := by
  unfold releaseWork
  dsimp only
  split
  · exact .refl s
  · split
    · exact (State.Move.release _).to.look
    · exact .refl s

/-- SUBMIT (R45 to R48). -/
theorem submitWork_moves {s : State} (hready : s.unit = .ready) : s.MovesTo (submitWork s).state := by
  unfold submitWork
  split
  · exact .refl s
  · split
    · exact .refl s
    · rename_i hbuffer
      split
      · exact .refl s
      · rename_i hspace
        exact (State.Move.enqueue s.latch hready (by simpa using hbuffer) (by simpa using hspace)).to.look

/-- CANCEL of the request in GAP or HOLDOFF (R52). -/
theorem State.cancelWaiting_moves {s : State} {c : Context} (hc : s.context = some c) :
    s.MovesTo (s.cancelWaiting c) := by
  have hclosed := State.closeEarly_moves hc .cancelled false true
  unfold State.cancelWaiting
  dsimp only
  split
  · exact hclosed.enterIdle.endDrain.look
  · exact hclosed.endDrain

/-- CANCEL (R49 to R53). -/
theorem cancelWork_moves (s : State) : s.MovesTo (cancelWork s).state := by
  unfold cancelWork
  dsimp only
  split
  · exact .refl s
  · split
    · rename_i r hr
      exact (State.Move.dequeue r (List.mem_of_find?_eq_some hr)).to.look
    · split
      · exact .refl s
      · rename_i c hc
        split
        · split
          · exact State.cancelWaiting_moves hc
          · exact State.HoldsAs.to (.replace hc rfl)
        · exact .refl s

/-- TAKE (R135, R136). -/
theorem takeWork_moves (s : State) : s.MovesTo (takeWork s).state := by
  unfold takeWork
  split
  · exact .refl s
  · exact (State.Move.handOver _ _ _ ‹_›).to.look

/-- START (R143). -/
theorem startWork_moves {s : State} (hready : s.unit = .ready) : s.MovesTo (startWork s).state := by
  have hrunning : s.MovesTo { s with mode := .running } := .of_holdings hready rfl rfl
  unfold startWork
  split
  · exact .refl s
  · split
    · exact .refl s
    · exact hrunning.look

/-- STOP (R144). -/
theorem State.stopLine_moves {s : State} (hready : s.unit = .ready) : s.MovesTo s.stopLine := by
  unfold State.stopLine
  split
  · exact .of_holdings hready rfl rfl
  all_goals
    split
    · exact .of_holdings hready rfl rfl
    · exact .of_holdings hready rfl rfl

/-- ABORT (R146). -/
theorem abortWork_moves (s : State) : s.MovesTo (abortWork s).state := by
  have hreleased : s.MovesTo s.releaseLine := (State.MovesTo.refl s).andHolds rfl rfl rfl
  cases hc : s.context with
  | none =>
    rw [abortWork_of_idle hc]
    exact hreleased.becomeStopped
  | some c =>
    rw [abortWork_of_flight hc]
    exact (hreleased.trans (State.closeEarly_moves (s := s.releaseLine) hc ..)).becomeStopped

/-- SET_LINE (R110). -/
theorem setLineWork_moves {s : State} (hready : s.unit = .ready) : s.MovesTo (setLineWork s).state := by
  unfold setLineWork
  split
  · exact .refl s
  · split
    · exact .refl s
    · exact .of_holdings hready rfl rfl

/-- GET_LINE (R111). -/
theorem getLineWork_moves {s : State} (hready : s.unit = .ready) : s.MovesTo (getLineWork s).state := by
  unfold getLineWork
  dsimp only
  split
  · exact .refl s
  · dsimp only
    split
    · exact .of_holdings hready rfl rfl
    · exact .refl s

/-- SET_LIMITS (R148). -/
theorem setLimitsWork_moves {s : State} (hready : s.unit = .ready) : s.MovesTo (setLimitsWork s).state := by
  unfold setLimitsWork
  split
  · exact .refl s
  · exact .of_holdings hready rfl rfl

/-- GET_LIMITS (R149). -/
theorem getLimitsWork_moves (s : State) : s.MovesTo (getLimitsWork s).state := by
  unfold getLimitsWork
  dsimp only
  split <;> exact .refl s

/-- SET_STATION (R28 to R34). -/
theorem setStationWork_moves (s : State) : s.MovesTo (setStationWork s).state := by
  have hset := (State.HoldsAs.setStation s s.latch.arg0.toNat (s.configuredEntry s.latch)).to
  unfold setStationWork
  split
  · exact .refl s
  · dsimp only
    split
    · exact hset
    · exact hset.look

/-- GET_STATION (R39). -/
theorem getStationWork_moves (s : State) : s.MovesTo (getStationWork s).state := by
  unfold getStationWork
  dsimp only
  split <;> exact .refl s

/-- NEXT_CHANGE (R37). -/
theorem nextChangeWork_moves (s : State) : s.MovesTo (nextChangeWork s).state := by
  unfold nextChangeWork
  split
  · exact .refl s
  · exact (State.HoldsAs.setStation s _ _).to

/-- The work that a code selects (R174, R176). -/
theorem workOf_moves (code : Byte) {s : State} (hready : s.unit = .ready) : s.MovesTo (workOf code s).state := by
  generalize hwork : workOf code = work
  unfold workOf at hwork
  split at hwork <;> subst hwork
  · exact allocateWork_moves s
  · exact releaseWork_moves s
  · exact submitWork_moves hready
  · exact cancelWork_moves s
  · exact takeWork_moves s
  · exact startWork_moves hready
  · exact State.stopLine_moves hready
  · exact abortWork_moves s
  · exact setLineWork_moves hready
  · exact getLineWork_moves hready
  · exact setLimitsWork_moves hready
  · exact getLimitsWork_moves s
  · exact setStationWork_moves s
  · exact getStationWork_moves s
  · exact nextChangeWork_moves s
  · exact .refl s

/-! ## The rows -/

/-- A write of a command's code (R171, R173). -/
theorem State.hostCommand_moves (s : State) (code : Byte) {work : State → Handled}
    (hwork : ∀ {x : State}, x.unit = .ready → x.MovesTo (work x).state) : s.MovesTo (s.hostCommand code work) := by
  rcases s.hostCommand_cases code work with ⟨-, h⟩ | ⟨-, -, h⟩ | ⟨-, hready, h⟩ <;> rw [h]
  · exact .refl s
  · exact (State.MovesTo.refl s).andHolds rfl rfl rfl
  · have hhanded : s.MovesTo (s.handedOver code) := (State.MovesTo.refl s).andHolds rfl rfl rfl
    have hdone : (work (s.handedOver code)).state.HoldsAs (s.runCommand code work) :=
      .of_not_initialising rfl nofun
    exact (hhanded.trans (hwork hready)).trans hdone.to

/-- A row that RESET# holds off (R153). -/
theorem State.live_moves {s : State} {f : State → State} (hf : s.MovesTo (f s)) : s.MovesTo (s.live f) := by
  rcases s.live_cases f with ⟨-, h⟩ | ⟨-, h⟩ <;> rw [h]
  · exact .refl s
  · exact hf

/-- A write of RESET's code (R154, R173). -/
theorem State.resetCommand_moves (s : State) : s.MovesTo s.resetCommand := by
  unfold State.resetCommand
  split
  · exact .refl s
  · split
    · exact State.Move.to (.reset (.of_eq rfl rfl rfl))
    all_goals exact (State.MovesTo.refl s).andHolds rfl rfl rfl

/-- The reset step of RESET# and power-on (R153). -/
theorem State.hardReset_moves (s : State) (held : Bool) : s.MovesTo (s.hardReset held) :=
  State.Move.to (.reset (.of_eq rfl rfl rfl))

/-- A write of any code to COMMAND (R171, R173, R174). -/
theorem State.writeCommand_moves (s : State) (code : Byte) : s.MovesTo (s.writeCommand code) := by
  unfold State.writeCommand
  split
  · exact s.resetCommand_moves
  · exact s.hostCommand_moves code (workOf_moves code)

/-- A chain, and then an advance of BUF_OFFSET (R120). -/
theorem State.MovesTo.advanceOffset {s t : State} (h : s.MovesTo t) : s.MovesTo t.advanceOffset :=
  h.andHolds rfl rfl rfl

/-- A read of BUF_DATA (R121). -/
theorem State.readBufData_moves (s : State) : s.MovesTo s.readBufData := by
  unfold State.readBufData
  split
  · exact (State.MovesTo.refl s).andHolds rfl rfl rfl
  · exact State.MovesTo.advanceOffset ((State.MovesTo.refl s).andHolds rfl rfl rfl)

/-- A write of BUF_DATA (R121). -/
theorem State.writeBufData_moves (s : State) (value : Byte) : s.MovesTo (s.writeBufData value) := by
  unfold State.writeBufData State.writeBuffer
  split
  · split <;> exact (State.MovesTo.refl s).andHolds rfl rfl rfl
  · exact State.MovesTo.advanceOffset ((State.MovesTo.refl s).andHolds rfl rfl rfl)

/-- A write of ENABLE_A or ENABLE_B (R163). -/
theorem State.writeEnable_moves (s : State) (bank : EventBank) (value : Byte) :
    s.MovesTo (s.writeEnable bank value) := by
  cases bank <;> exact (State.MovesTo.refl s).andHolds rfl rfl rfl

/-- A write access to any offset (R167). -/
theorem State.hostWrite_moves (s : State) (offset : Offset) (value : Byte) : s.MovesTo (s.hostWrite offset value) := by
  unfold State.hostWrite
  split
  case h_5 => exact s.writeCommand_moves value
  case h_8 => exact s.writeBufData_moves value
  case h_9 =>
    split
    · exact (State.MovesTo.refl s).andHolds rfl rfl rfl
    · exact .refl s
  all_goals exact (State.MovesTo.refl s).andHolds rfl rfl rfl

/-- The completion of a command (R172). -/
theorem State.completeCommand_moves (s : State) : s.MovesTo s.completeCommand := by
  unfold State.completeCommand
  split
  · exact State.HoldsAs.to (.of_not_initialising rfl nofun)
  all_goals exact .refl s

/-- The return to mark after a framing failure (R4). -/
theorem State.returnToMark_moves (s : State) : s.MovesTo s.returnToMark := by
  unfold State.returnToMark
  split
  · exact s.receiver_moves _
  · exact .refl s

/-- The expiry of GAP's timer (R88). -/
theorem State.telegramGapEnd_moves (s : State) : s.MovesTo s.telegramGapEnd := by
  unfold State.telegramGapEnd
  split
  · exact s.enterCalling_moves
  · exact .refl s

/-- The expiry of the DE lead timer (R89). -/
theorem State.deLeadEnd_moves (s : State) : s.MovesTo s.deLeadEnd := by
  unfold State.deLeadEnd
  split
  · exact s.beginCall_moves
  · exact .refl s

/-- The expiry of the DE trail timer (R89). -/
theorem State.deTrailEnd_moves (s : State) : s.MovesTo s.deTrailEnd := by
  unfold State.deTrailEnd
  split
  · exact s.completeCall_moves
  · exact .refl s

/-- A station that falls due for a poll (R71). -/
theorem State.pollFallsDue_moves (s : State) (a : Nat) : s.MovesTo (s.pollFallsDue a) := by
  unfold State.pollFallsDue
  split
  · exact s.look_moves
  · exact .refl s

/-- A station that falls due for a probe (R72). -/
theorem State.probeFallsDue_moves (s : State) (a : Nat) : s.MovesTo (s.probeFallsDue a) := by
  unfold State.probeFallsDue
  split
  · exact s.look_moves
  · exact .refl s

/-- Every row answers a next state, by a chain of moves. -/
theorem exec_moves (i : Instr) (s : State) : ∃ t, exec i s = .next t ∧ s.MovesTo t := by
  cases i with
  | reset => exact ⟨_, rfl, s.resetCommand_moves⟩
  | unknownCommand code => exact ⟨_, rfl, s.writeCommand_moves code⟩
  | discardedCommandWrite code => exact ⟨_, rfl, s.writeCommand_moves code⟩
  | allocate => exact ⟨_, rfl, s.hostCommand_moves _ fun _ => allocateWork_moves _⟩
  | release => exact ⟨_, rfl, s.hostCommand_moves _ fun _ => releaseWork_moves _⟩
  | submit => exact ⟨_, rfl, s.hostCommand_moves _ submitWork_moves⟩
  | cancel => exact ⟨_, rfl, s.hostCommand_moves _ fun _ => cancelWork_moves _⟩
  | take => exact ⟨_, rfl, s.hostCommand_moves _ fun _ => takeWork_moves _⟩
  | start => exact ⟨_, rfl, s.hostCommand_moves _ startWork_moves⟩
  | stop => exact ⟨_, rfl, s.hostCommand_moves (work := stopWork) _ State.stopLine_moves⟩
  | abort => exact ⟨_, rfl, s.hostCommand_moves _ fun _ => abortWork_moves _⟩
  | setLine => exact ⟨_, rfl, s.hostCommand_moves _ setLineWork_moves⟩
  | getLine => exact ⟨_, rfl, s.hostCommand_moves _ getLineWork_moves⟩
  | setLimits => exact ⟨_, rfl, s.hostCommand_moves _ setLimitsWork_moves⟩
  | getLimits => exact ⟨_, rfl, s.hostCommand_moves _ fun _ => getLimitsWork_moves _⟩
  | setStation => exact ⟨_, rfl, s.hostCommand_moves _ fun _ => setStationWork_moves _⟩
  | getStation => exact ⟨_, rfl, s.hostCommand_moves _ fun _ => getStationWork_moves _⟩
  | nextChange => exact ⟨_, rfl, s.hostCommand_moves _ fun _ => nextChangeWork_moves _⟩
  | commandCompletion => exact ⟨_, rfl, State.live_moves s.completeCommand_moves⟩
  | eventsWrite bank value =>
    exact ⟨_, rfl, State.live_moves ((State.MovesTo.refl s).andHolds rfl rfl rfl)⟩
  | enableWrite bank value => exact ⟨_, rfl, State.live_moves (s.writeEnable_moves bank value)⟩
  | bufSelectWrite value => exact ⟨_, rfl, State.live_moves ((State.MovesTo.refl s).andHolds rfl rfl rfl)⟩
  | bufOffsetWrite value => exact ⟨_, rfl, State.live_moves ((State.MovesTo.refl s).andHolds rfl rfl rfl)⟩
  | bufDataRead => exact ⟨_, rfl, State.live_moves s.readBufData_moves⟩
  | bufDataWrite value => exact ⟨_, rfl, State.live_moves (s.writeBufData_moves value)⟩
  | timeLoRead => exact ⟨_, rfl, State.live_moves ((State.MovesTo.refl s).andHolds rfl rfl rfl)⟩
  | registerWrite offset value => exact ⟨_, rfl, State.live_moves (s.hostWrite_moves offset value)⟩
  | resetAssert => exact ⟨_, rfl, s.hardReset_moves true⟩
  | resetRelease => exact ⟨_, rfl, (State.MovesTo.refl s).andHolds rfl rfl rfl⟩
  | powerOn => exact ⟨_, rfl, s.hardReset_moves _⟩
  | initialisationEnd => exact ⟨_, rfl, State.live_moves State.Move.endInitialisation.to⟩
  | characterDelivered d m p st => exact ⟨_, rfl, State.live_moves (s.deliver_moves d m p st)⟩
  | confirmedStartBit => exact ⟨_, rfl, State.live_moves s.startCharacter_moves⟩
  | spaceCharacter => exact ⟨_, rfl, State.live_moves s.releaseSpace_moves⟩
  | breakDetected => exact ⟨_, rfl, State.live_moves s.detectBreak_moves⟩
  | breakEnd => exact ⟨_, rfl, State.live_moves s.endBreak_moves⟩
  | telegramGapExpiry => exact ⟨_, rfl, State.live_moves s.telegramGapEnd_moves⟩
  | deLeadExpiry => exact ⟨_, rfl, State.live_moves s.deLeadEnd_moves⟩
  | deTrailExpiry => exact ⟨_, rfl, State.live_moves s.deTrailEnd_moves⟩
  | echoMissing =>
    refine ⟨_, rfl, State.live_moves ?_⟩
    split
    · exact s.collide_moves
    all_goals exact .refl s
  | characterSent =>
    refine ⟨_, rfl, State.live_moves ?_⟩
    split
    · exact s.sendNext_moves _
    all_goals exact .refl s
  | answerTimerExpiry => exact ⟨_, rfl, State.live_moves s.answerTimerEnd_moves⟩
  | characterGapExpiry => exact ⟨_, rfl, State.live_moves s.characterGapEnd_moves⟩
  | settleTimerExpiry => exact ⟨_, rfl, State.live_moves s.settleEnd_moves⟩
  | holdoffExpiry => exact ⟨_, rfl, State.live_moves s.holdoffEnd_moves⟩
  | timeCounterTick => exact ⟨_, rfl, State.live_moves s.tick_moves⟩
  | tenMsTick => exact ⟨_, rfl, State.live_moves s.tick10_moves⟩
  | hundredMsTick => exact ⟨_, rfl, State.live_moves s.tick100_moves⟩
  | pollCountdownExpiry a => exact ⟨_, rfl, State.live_moves (s.pollFallsDue_moves a)⟩
  | probeCountdownExpiry a => exact ⟨_, rfl, State.live_moves (s.probeFallsDue_moves a)⟩
  | holdEnd => exact ⟨_, rfl, State.live_moves s.endHolds_moves⟩
  | rxdReturnToMark => exact ⟨_, rfl, State.live_moves s.returnToMark_moves⟩

/-- Every step is a chain of moves: that a command leaves the waiting queue is not among the holdings. -/
theorem step_moves {s t : State} (h : step s = .next t) : s.MovesTo t := by
  unfold step at h
  split at h
  · cases h
    exact .refl s
  · rename_i c rest _
    obtain ⟨u, hexec, hmoves⟩ := exec_moves c { s with pending := rest }
    obtain rfl := Host.Outcome.next.inj (hexec.symm.trans h)
    exact State.MovesTo.trans (t := { s with pending := rest }) ((State.MovesTo.refl s).andHolds rfl rfl rfl) hmoves

end Sys2Proof.Machine
end

section
/-! SUPPORT. The invariants of the slots, the queue and the buffers: each move keeps them. -/

namespace Sys2Proof.Machine

/-! ## What a move leaves in each holding -/

/-- The holdings one by one. -/
theorem State.HoldsAs.fields {s t : State} (h : s.HoldsAs t) :
    t.owners = s.owners ∧ t.freeList = s.freeList ∧ t.queue = s.queue ∧ t.ticketCounter = s.ticketCounter ∧
      t.results = s.results ∧ t.reserved = s.reserved ∧
      t.context.map Context.holding = s.context.map Context.holding := by
  simpa [State.holdings] using h.1

/-- A transaction is in flight in both or in neither. -/
theorem State.HoldsAs.isSome_context {s t : State} (h : s.HoldsAs t) : t.context.isSome = s.context.isSome := by
  obtain ⟨-, -, -, -, -, -, hcontext⟩ := h.fields
  simpa using congrArg Option.isSome hcontext

/-! ### The completion at dispatch (R64) -/

@[simp] theorem State.completeAtDispatch_queue (s : State) (r : Request) :
    (s.completeAtDispatch r).queue = (s.removeRequest r.ticket).queue := by
  simp [State.completeAtDispatch]

@[simp] theorem State.completeAtDispatch_context (s : State) (r : Request) :
    (s.completeAtDispatch r).context = s.context := by
  simp [State.completeAtDispatch]

@[simp] theorem State.completeAtDispatch_reserved (s : State) (r : Request) :
    (s.completeAtDispatch r).reserved = s.reserved := by
  simp [State.completeAtDispatch]

@[simp] theorem State.completeAtDispatch_results (s : State) (r : Request) :
    (s.completeAtDispatch r).results =
      s.results ++ [{ r.completionRecord (s.station r.station).state with stamp := s.timeCounter }] := by
  simp [State.completeAtDispatch]

/-! ### The dispatches (R62, R63) -/

@[simp] theorem State.dispatchRequest_queue (s : State) (r : Request) :
    (s.dispatchRequest r).queue = (s.removeRequest r.ticket).queue := by
  unfold State.dispatchRequest
  split <;> simp

@[simp] theorem State.dispatchRequest_results (s : State) (r : Request) :
    (s.dispatchRequest r).results = s.results := by
  unfold State.dispatchRequest
  split <;> simp

@[simp] theorem State.dispatchRequest_reserved (s : State) (r : Request) : (s.dispatchRequest r).reserved = true := by
  unfold State.dispatchRequest
  split <;> simp

@[simp] theorem State.dispatchPoll_queue (s : State) (a : Nat) : (s.dispatchPoll a).queue = s.queue := by
  simp [State.dispatchPoll]

@[simp] theorem State.dispatchPoll_results (s : State) (a : Nat) : (s.dispatchPoll a).results = s.results := by
  simp [State.dispatchPoll]

@[simp] theorem State.dispatchPoll_reserved (s : State) (a : Nat) : (s.dispatchPoll a).reserved = true := by
  simp [State.dispatchPoll]

/-! ## The slots (R130) -/

/-- The slots, where neither the records, the mark nor the context has changed. -/
theorem State.SlotsOk.of_eq {s t : State} (h : s.SlotsOk) (hreserved : t.reserved = s.reserved)
    (hresults : t.results = s.results) (hcontext : t.context = s.context) : t.SlotsOk := by
  rwa [State.SlotsOk, hreserved, hresults, hcontext]

/-- Every move keeps the records and the reserved slot within 24. -/
theorem State.SlotsOk.move {s t : State} (h : s.SlotsOk) (hmove : s.Move t) : t.SlotsOk := by
  obtain ⟨hmark, hcount⟩ := id h
  cases hmove with
  | hold hst =>
    obtain ⟨-, -, -, -, hresults, hreserved, -⟩ := hst.fields
    rwa [State.SlotsOk, hreserved, hresults, hst.isSome_context]
  | allocate => exact h.of_eq (by simp) (by simp) (by simp)
  | release b => exact h.of_eq (by simp) (by simp) (by simp)
  | enqueue a hunit hbuffer hspace =>
    exact h.of_eq (by simp [State.enqueue]) (by simp [State.enqueue]) (by simp [State.enqueue])
  | dequeue r hr => exact h.of_eq (by simp) (by simp) (by simp)
  | handOver r rest shown hr =>
    rw [hr, List.length_cons] at hcount
    refine ⟨by simpa using hmark, ?_⟩
    simp only [State.changeOwnerOpt_results, State.changeOwnerOpt_context]
    omega
  | close c record clearSync hc hrecord =>
    have hposted : (s.close c record clearSync).results.length ≤ s.results.length + 1 := by
      rw [State.close_results]
      cases record <;> simp
    rw [hc] at hcount
    refine ⟨by simp, ?_⟩
    rw [State.close_context]
    exact hposted.trans hcount
  | busyReturn c hc ho hspace =>
    refine ⟨rfl, ?_⟩
    have hresults : (s.busyReturn c).results = s.results := by simp [State.busyReturn]
    rw [hresults]
    exact (Nat.le_add_right _ _).trans hcount
  | complete r hr hidle hslot =>
    refine ⟨by simpa using hmark, ?_⟩
    simpa [hidle, bitOf] using hslot
  | dispatchRequest r hr hidle hslot =>
    refine ⟨by rw [State.dispatchRequest_reserved]; rfl, ?_⟩
    rw [State.dispatchRequest_results]
    exact hslot
  | dispatchPoll a hmode hidle hslot =>
    refine ⟨by rw [State.dispatchPoll_reserved]; rfl, ?_⟩
    rw [State.dispatchPoll_results]
    exact hslot
  | endHolds ended => exact h
  | reset hst =>
    obtain ⟨-, -, -, -, hresults, hreserved, -⟩ := hst.fields
    rw [State.SlotsOk, hreserved, hresults, hst.isSome_context]
    decide
  | endInitialisation =>
    unfold State.endInitialisation
    split <;> exact h

/-! ## The queue (R43) -/

/-- A part of the queue is within 16 and in order. -/
theorem State.QueueOk.of_sublist {s t : State} (h : s.QueueOk) (hqueue : t.queue.Sublist s.queue) : t.QueueOk :=
  ⟨hqueue.length_le.trans h.1, h.2.sublist hqueue⟩

/-- Every move keeps the queue within 16 records, the urgent ones first. -/
theorem State.QueueOk.move {s t : State} (h : s.QueueOk) (hmove : s.Move t) : t.QueueOk := by
  have horder : UrgentFirst s.queue := h.2
  cases hmove with
  | hold hst =>
    obtain ⟨-, -, hqueue, -⟩ := hst.fields
    rwa [State.QueueOk, hqueue]
  | allocate => exact h.of_sublist (by simp)
  | release b => exact h.of_sublist (by simp)
  | enqueue a hunit hbuffer hspace =>
    exact ⟨(placeAtTail_length ..).trans_le hspace, horder.placeAtTail _⟩
  | dequeue r hr => exact h.of_sublist (by simpa using s.removeRequest_queue_sublist r.ticket)
  | handOver r rest shown hr => exact h.of_sublist (by simp)
  | close c record clearSync hc hrecord => exact h.of_sublist (by simp)
  | busyReturn c hc ho hspace => exact ⟨(placeAtHead_length ..).trans_le hspace, horder.placeAtHead _⟩
  | complete r hr hidle hslot => exact h.of_sublist (by simpa using s.removeRequest_queue_sublist r.ticket)
  | dispatchRequest r hr hidle hslot => exact h.of_sublist (by simpa using s.removeRequest_queue_sublist r.ticket)
  | dispatchPoll a hmode hidle hslot => exact h.of_sublist (by simp)
  | endHolds ended =>
    refine ⟨by simpa using h.1, List.pairwise_map.2 (horder.imp fun {a b} hab => ?_)⟩
    split <;> split <;> exact hab
  | reset hst =>
    obtain ⟨-, -, hqueue, -⟩ := hst.fields
    rw [State.QueueOk, hqueue]
    decide
  | endInitialisation =>
    unfold State.endInitialisation
    split <;> exact h

/-- Settles O56: a step is a chain of moves, and each keeps the slots and the queue. -/
theorem stepKeepsSlotsAndQueue : Obligations.StepKeepsSlotsAndQueue := fun _ _ hslots hqueue hstep =>
  (step_moves hstep).keeps (P := fun s => s.SlotsOk ∧ s.QueueOk) ⟨hslots, hqueue⟩ fun _ _ hmove hs =>
    ⟨hs.1.move hmove, hs.2.move hmove⟩

end Sys2Proof.Machine
end

section
/-! SUPPORT. The buffers and their holders: the ownerships against one list of holders for each, and what becomes of them
when a buffer passes from one party to another (R113, R114). -/

namespace Sys2Proof.Machine

/-! ## A change of ownership that applies -/

/-- A change of ownership of a buffer that may be absent, where the buffer has the ownership it leaves. -/
theorem State.changeOwnerOpt_eq {s : State} {buffer : Option Nat} {old : Ownership} (new : Ownership)
    (h : ∀ b ∈ buffer, s.owner b = some old) :
    s.changeOwner? buffer old new =
      { s with
        owners := buffer.elim s.owners (s.owners.set · new)
        freeList := if new = .free then s.freeList ++ buffer.toList else s.freeList } := by
  cases buffer with
  | none => cases s; simp [State.changeOwner?]
  | some b => exact State.changeOwner_eq new (h b rfl)

/-! ## Ownerships and holders -/

/-- Every buffer whose ownership is not HOST stands once in the list of that ownership's holders, and no other buffer
stands there. -/
def Balanced (owners : List Ownership) (ledger : Ownership → List Nat) : Prop :=
  owners.length = 64 ∧ ∀ o, o ≠ .host → (ledger o).Nodup ∧ ∀ b, b ∈ ledger o ↔ owners[b]? = some o

/-- The order within a list of holders does not matter. -/
theorem Balanced.perm {owners : List Ownership} {ledger ledger' : Ownership → List Nat} (h : Balanced owners ledger)
    (hperm : ∀ o, o ≠ .host → (ledger o).Perm (ledger' o)) : Balanced owners ledger' := by
  refine ⟨h.1, fun o ho => ?_⟩
  obtain ⟨hnodup, hmem⟩ := h.2 o ho
  exact ⟨(hperm o ho).nodup_iff.1 hnodup, fun b => (hperm o ho).mem_iff.symm.trans (hmem b)⟩

/-- A buffer passes from one party to another: it leaves the list of the one and joins the list of the other. -/
theorem Balanced.transfer {owners : List Ownership} {ledger ledger' : Ownership → List Nat} {b : Nat}
    {old new : Ownership} (h : Balanced owners ledger) (hb : owners[b]? = some old) (hne : old ≠ new)
    (hgive : old ≠ .host → (ledger old).Perm (b :: ledger' old))
    (htake : new ≠ .host → (ledger' new).Perm (b :: ledger new))
    (hkeep : ∀ o, o ≠ old → o ≠ new → ledger' o = ledger o) : Balanced (owners.set b new) ledger' := by
  obtain ⟨hlt, -⟩ := List.getElem?_eq_some_iff.1 hb
  refine ⟨by simpa using h.1, fun o ho => ?_⟩
  obtain ⟨hnodup, hmem⟩ := h.2 o ho
  have hset : ∀ x, (owners.set b new)[x]? = some o ↔ if x = b then new = o else owners[x]? = some o := fun x => by
    by_cases hx : x = b
    · subst hx
      simp [hlt]
    · simp [hx, List.getElem?_set_ne (Ne.symm hx)]
  by_cases hold : o = old
  · subst hold
    have hgiven := hgive ho
    obtain ⟨hout, hrest⟩ := List.nodup_cons.1 (hgiven.nodup_iff.1 hnodup)
    refine ⟨hrest, fun x => ?_⟩
    rw [hset, ← hmem, hgiven.mem_iff, List.mem_cons]
    by_cases hx : x = b
    · simp [hx, hout, hne.symm]
    · simp [hx]
  · by_cases hnew : o = new
    · subst hnew
      have htaken := htake ho
      have hout : b ∉ ledger o := fun hin => hne (by simpa [hb] using (hmem b).1 hin)
      refine ⟨htaken.nodup_iff.2 (List.nodup_cons.2 ⟨hout, hnodup⟩), fun x => ?_⟩
      rw [hset, ← hmem, htaken.mem_iff, List.mem_cons]
      by_cases hx : x = b <;> simp [hx]
    · rw [hkeep o hold hnew]
      refine ⟨hnodup, fun x => ?_⟩
      rw [hset, hmem]
      by_cases hx : x = b
      · subst hx
        simp [hb, Ne.symm hold, Ne.symm hnew]
      · simp [hx]

/-- The same for a buffer that may be absent. -/
theorem Balanced.transferOpt {owners : List Ownership} {ledger ledger' : Ownership → List Nat} {buffer : Option Nat}
    {old new : Ownership} (h : Balanced owners ledger) (hb : ∀ b ∈ buffer, owners[b]? = some old) (hne : old ≠ new)
    (hgive : old ≠ .host → (ledger old).Perm (buffer.toList ++ ledger' old))
    (htake : new ≠ .host → (ledger' new).Perm (buffer.toList ++ ledger new))
    (hkeep : ∀ o, o ≠ old → o ≠ new → ledger' o = ledger o) :
    Balanced (buffer.elim owners (owners.set · new)) ledger' := by
  cases buffer with
  | some b => exact h.transfer (hb b rfl) hne hgive htake hkeep
  | none =>
    refine h.perm fun o ho => ?_
    by_cases hold : o = old
    · exact hold ▸ hgive (hold ▸ ho)
    · by_cases hnew : o = new
      · exact hnew ▸ (htake (hnew ▸ ho)).symm
      · rw [hkeep o hold hnew]

/-! ## The holders of the part -/

/-- The lists of the holders by ownership: the free list, and the buffers that queued records, the context and result
records name. -/
def ledgerOf (free queued line result : List Nat) : Ownership → List Nat
  | .free => free
  | .host => []
  | .queued => queued
  | .line => line
  | .result => result

/-- The ownerships of the part agree with its free list and its records. -/
def State.PoolBalanced (s : State) : Prop :=
  Balanced s.owners (ledgerOf s.freeList s.queuedBuffers s.lineBuffers s.resultBuffers)

/-- The model's invariant: the ownerships agree with the holders, with the tickets and the initialisation. -/
theorem State.buffersOk_iff (s : State) : s.BuffersOk ↔ s.PoolBalanced ∧ s.TicketsOk ∧ s.InitialisationOk := by
  constructor
  · intro h
    obtain ⟨⟨hlen, hfree, hlow, hiff⟩, htickets, hinit, -, hqueued, hline, hresult, -⟩ := id h
    refine ⟨⟨hlen, fun o ho => ?_⟩, htickets, hinit⟩
    cases o with
    | host => exact absurd rfl ho
    | free =>
      exact ⟨hfree, fun b => ⟨fun hb => (hiff b (hlow b hb)).1 hb, fun hb => (hiff b (h.1.owner_lt hb)).2 hb⟩⟩
    | queued => exact ⟨hqueued, h.queued_iff⟩
    | line => exact ⟨hline, h.line_iff⟩
    | result => exact ⟨hresult, h.result_iff⟩
  · rintro ⟨⟨hlen, hledger⟩, htickets, hinit⟩
    have hlt : ∀ {b : Nat} {o : Ownership}, s.owner b = some o → b < 64 := fun hb =>
      hlen ▸ (List.getElem?_eq_some_iff.1 hb).1
    obtain ⟨hfree, hfreeIff⟩ := hledger .free nofun
    obtain ⟨hqueued, hqueuedIff⟩ := hledger .queued nofun
    obtain ⟨hline, hlineIff⟩ := hledger .line nofun
    obtain ⟨hresult, hresultIff⟩ := hledger .result nofun
    refine ⟨⟨hlen, hfree, fun b hb => hlt ((hfreeIff b).1 hb), fun b _ => hfreeIff b⟩, htickets, hinit, fun b hb => ?_,
      hqueued, hline, hresult, fun b _ => hqueuedIff b, fun b _ => hlineIff b, fun b _ => hresultIff b⟩
    rcases List.mem_append.1 hb with hb | hb
    · rcases List.mem_append.1 hb with hb | hb
      · exact hlt ((hqueuedIff b).1 hb)
      · exact hlt ((hlineIff b).1 hb)
    · exact hlt ((hresultIff b).1 hb)

end Sys2Proof.Machine
end

section
/-! SUPPORT. Each move keeps the ownerships in agreement with the holders, and the tickets apart. -/

namespace Sys2Proof.Machine

/-! ## Holders of one more or one fewer record -/

/-- The out buffers of a queue with one more record. -/
theorem filterMap_outBuffer_cons (r : Request) (queue : List Request) :
    (r :: queue).filterMap (·.outBuffer) = r.outBuffer.toList ++ queue.filterMap (·.outBuffer) := by
  cases hr : r.outBuffer <;> simp [hr]

/-- The buffers of the result records with one more in front. -/
theorem filterMap_buffer_cons (r : ResultRecord) (results : List ResultRecord) :
    (r :: results).filterMap (·.buffer) = r.buffer.toList ++ results.filterMap (·.buffer) := by
  cases hr : r.buffer <;> simp [hr]

/-- The removal of a ticket takes its one record out of the queue. -/
theorem State.removeRequest_perm {s : State} {r : Request} (hr : r ∈ s.queue)
    (hnodup : (s.queue.map (·.ticket)).Nodup) : s.queue.Perm (r :: (s.removeRequest r.ticket).queue) := by
  obtain ⟨x, before, behind, -, hx, hqueue, herase⟩ :=
    List.exists_of_eraseP (p := fun q : Request => q.ticket == r.ticket) hr (by simp)
  have hxr : x = r := List.inj_on_of_nodup_map hnodup (by simp [hqueue]) hr (by simpa using hx)
  rw [State.removeRequest_queue, herase, ← hxr, hqueue]
  exact List.perm_middle

/-! ## The buffers -/

/-- The buffers of the transaction in flight. -/
theorem State.lineBuffers_of_flight {s : State} {c : Context} (hc : s.context = some c) :
    s.lineBuffers = c.outBuffer.toList ++ c.answerBuffer.toList := by
  simp only [State.lineBuffers, hc]

/-- With nothing in flight no buffer is in flight. -/
theorem State.lineBuffers_of_idle {s : State} (hc : s.context = none) : s.lineBuffers = [] := by
  simp only [State.lineBuffers, hc]

/-- The pool, where its parts have not changed. -/
theorem State.PoolBalanced.of_eq {s t : State} (h : s.PoolBalanced) (howners : t.owners = s.owners)
    (hfree : t.freeList = s.freeList) (hqueued : t.queuedBuffers = s.queuedBuffers)
    (hline : t.lineBuffers = s.lineBuffers) (hresults : t.resultBuffers = s.resultBuffers) : t.PoolBalanced := by
  unfold State.PoolBalanced
  rw [howners, hfree, hqueued, hline, hresults]
  exact h

/-- The pool depends on what is held alone. -/
theorem State.PoolBalanced.of_holds {s t : State} (h : s.PoolBalanced) (hst : s.HoldsAs t) : t.PoolBalanced := by
  obtain ⟨howners, hfree, hqueue, -, hresults, -, hcontext⟩ := hst.fields
  have hline : t.lineBuffers = s.lineBuffers := by
    unfold State.lineBuffers
    cases hs : s.context with
    | none =>
      rw [hs, Option.map_none, Option.map_eq_none_iff] at hcontext
      rw [hcontext]
    | some c =>
      rw [hs, Option.map_some, Option.map_eq_some_iff] at hcontext
      obtain ⟨c', ht, hholding⟩ := hcontext
      simp only [Context.holding, Prod.mk.injEq] at hholding
      simp [ht, hholding]
  exact h.of_eq howners hfree (by rw [State.queuedBuffers, hqueue, State.queuedBuffers]) hline
    (by rw [State.resultBuffers, hresults, State.resultBuffers])

/-- A change of ownership depends on the pool alone. -/
theorem State.changeOwnerOpt_pool {s t : State} (howners : t.owners = s.owners) (hfree : t.freeList = s.freeList)
    (buffer : Option Nat) (old new : Ownership) :
    (t.changeOwner? buffer old new).owners = (s.changeOwner? buffer old new).owners ∧
    (t.changeOwner? buffer old new).freeList = (s.changeOwner? buffer old new).freeList := by
  cases buffer with
  | none => exact ⟨howners, hfree⟩
  | some b =>
    have howner : t.owner b = s.owner b := by rw [State.owner, howners, State.owner]
    by_cases hb : s.owner b = some old
    · simp only [State.changeOwner?]
      rw [State.changeOwner_eq new hb, State.changeOwner_eq new (howner.trans hb), howners, hfree]
      exact ⟨rfl, rfl⟩
    · simp only [State.changeOwner?]
      rw [State.changeOwner_of_ne new hb, State.changeOwner_of_ne new (howner ▸ hb)]
      exact ⟨howners, hfree⟩

/-- The taking of a buffer depends on the pool alone. -/
theorem State.takeHead_pool {s t : State} (howners : t.owners = s.owners) (hfree : t.freeList = s.freeList)
    (new : Ownership) :
    (t.takeHead new).owners = (s.takeHead new).owners ∧ (t.takeHead new).freeList = (s.takeHead new).freeList := by
  cases hlist : s.freeList with
  | nil =>
    rw [State.takeHead_nil _ hlist, State.takeHead_nil _ (hfree.trans hlist)]
    exact ⟨howners, hfree⟩
  | cons b rest =>
    rw [State.takeHead_cons _ hlist, State.takeHead_cons _ (hfree.trans hlist), howners]
    exact ⟨rfl, rfl⟩

/-- The part in the midst of a dispatch: the record has left the queue, the slot is reserved, and the answer buffer,
where the request needs one, is taken (R62). -/
def State.dispatchTaken (s : State) (r : Request) : State :=
  if r.needsBuffer then ({ s.removeRequest r.ticket with reserved := true } : State).takeHead .line
  else { s.removeRequest r.ticket with reserved := true }

/-- The pool in the midst of a dispatch. -/
theorem State.dispatchTaken_pool (s : State) (r : Request) :
    (s.dispatchTaken r).owners = (if r.needsBuffer then s.takeHead .line else s).owners ∧
    (s.dispatchTaken r).freeList = (if r.needsBuffer then s.takeHead .line else s).freeList := by
  unfold State.dispatchTaken
  split
  · exact State.takeHead_pool (s := s) (t := { s.removeRequest r.ticket with reserved := true }) rfl rfl .line
  · exact ⟨rfl, rfl⟩

/-- The pool after a closing. -/
theorem State.close_pool (s : State) (c : Context) (record : Option ResultRecord) (clearSync : Bool) :
    (s.close c record clearSync).owners = ((s.changeOwner? c.outBuffer .line .free).changeOwner? c.answerBuffer .line
      (if (record.bind ResultRecord.buffer).isSome then .result else .free)).owners ∧
    (s.close c record clearSync).freeList = ((s.changeOwner? c.outBuffer .line .free).changeOwner? c.answerBuffer .line
      (if (record.bind ResultRecord.buffer).isSome then .result else .free)).freeList := by
  obtain ⟨howners, hfree⟩ := State.changeOwnerOpt_pool (s := s) (t := s.settleSlot record) (by simp) (by simp)
    c.outBuffer .line .free
  have hsecond := State.changeOwnerOpt_pool howners hfree c.answerBuffer .line
    (if (record.bind ResultRecord.buffer).isSome then .result else .free)
  cases clearSync with
  | false => exact hsecond
  | true => simpa [State.close, State.disposeBuffers] using hsecond

section Pool

variable {s : State} (h : s.PoolBalanced)
include h

/-- A queued record's out buffer is QUEUED. -/
theorem State.PoolBalanced.owner_of_queued {r : Request} (hr : r ∈ s.queue) :
    ∀ b ∈ r.outBuffer, s.owner b = some .queued := fun b hb =>
  ((h.2 .queued nofun).2 b).1 (List.mem_filterMap.2 ⟨r, hr, hb⟩)

/-- The context's out buffer is LINE. -/
theorem State.PoolBalanced.owner_of_out {c : Context} (hc : s.context = some c) :
    ∀ b ∈ c.outBuffer, s.owner b = some .line := fun b hb =>
  ((h.2 .line nofun).2 b).1 (by
    show b ∈ s.lineBuffers
    simp only [State.lineBuffers_of_flight hc, List.mem_append, Option.mem_toList]
    exact .inl hb)

/-- ALLOCATE takes the head of the free list (R119). -/
theorem State.PoolBalanced.allocate : (s.takeHead .host).PoolBalanced := by
  cases hfree : s.freeList with
  | nil => rwa [State.takeHead_nil _ hfree]
  | cons b rest =>
    have hb : s.owner b = some .free := ((h.2 .free nofun).2 b).1 (by simp [ledgerOf, hfree])
    rw [State.takeHead_cons _ hfree]
    exact Balanced.transfer h hb nofun (fun _ => by simp [ledgerOf, hfree]) (absurd rfl)
      (fun o _ _ => by cases o <;> trivial)

/-- RELEASE puts a HOST buffer at the tail of the free list (R119). -/
theorem State.PoolBalanced.release (b : Nat) : (s.changeOwner b .host .free).PoolBalanced := by
  by_cases hb : s.owner b = some .host
  · rw [State.changeOwner_eq _ hb]
    exact Balanced.transfer h hb nofun (absurd rfl) (fun _ => by simp [ledgerOf, List.perm_append_singleton])
      (fun o _ _ => by cases o <;> trivial)
  · rwa [State.changeOwner_of_ne _ hb]

/-- TAKE makes the head record's buffer HOST (R136). -/
theorem State.PoolBalanced.handOver {r : ResultRecord} {rest : List ResultRecord} (shown : Taken)
    (hr : s.results = r :: rest) :
    (({ s with results := rest, taken := shown } : State).changeOwner? r.buffer .result .host).PoolBalanced := by
  have hbuffers : s.resultBuffers = r.buffer.toList ++ rest.filterMap (·.buffer) := by
    rw [State.resultBuffers, hr, filterMap_buffer_cons]
  have hb : ∀ b ∈ r.buffer, ({ s with results := rest, taken := shown } : State).owner b = some .result := fun b hb =>
    ((h.2 .result nofun).2 b).1 (hbuffers ▸ List.mem_append_left _ (Option.mem_toList.2 hb) : b ∈ s.resultBuffers)
  rw [State.changeOwnerOpt_eq _ hb]
  exact Balanced.transferOpt h hb nofun (fun _ => List.Perm.of_eq hbuffers) (absurd rfl)
    (fun o _ _ => by cases o <;> trivial)

/-- SUBMIT makes the named buffer QUEUED (R48). -/
theorem State.PoolBalanced.enqueue {a : Args} (hbuffer : s.submitBufferOk a = true) : (s.enqueue a).PoolBalanced := by
  have hb : ∀ b ∈ bufferOfArg a.arg2, s.owner b = some .host := fun b hb => by
    simpa [State.submitBufferOk, Option.mem_def.1 hb] using hbuffer
  have hqueued : (s.enqueue a).queuedBuffers.Perm ((bufferOfArg a.arg2).toList ++ s.queuedBuffers) :=
    ((placeAtTail_perm s.queue (submitRecord a (s.freeTicket 255 s.ticketCounter))).filterMap _).trans
      (List.Perm.of_eq (filterMap_outBuffer_cons ..))
  unfold State.enqueue at hqueued ⊢
  rw [State.changeOwnerOpt_eq _ hb] at hqueued ⊢
  exact Balanced.transferOpt h hb nofun (absurd rfl) (fun _ => hqueued) (fun o _ _ => by cases o <;> trivial)

/-- A record leaves the queue, and its out buffer passes to the transaction in flight or to the free list (R51, R62,
R64). -/
theorem State.PoolBalanced.dequeue {t : State} {r : Request} {new : Ownership} (hr : r ∈ s.queue)
    (hnodup : (s.queue.map (·.ticket)).Nodup) (hnew : new = .free ∨ new = .line)
    (howners : t.owners = ((s.removeRequest r.ticket).changeOwner? r.outBuffer .queued new).owners)
    (hfree : t.freeList = ((s.removeRequest r.ticket).changeOwner? r.outBuffer .queued new).freeList)
    (hqueue : t.queue = (s.removeRequest r.ticket).queue)
    (hline : t.lineBuffers = if new = .line then r.outBuffer.toList ++ s.lineBuffers else s.lineBuffers)
    (hresults : t.resultBuffers = s.resultBuffers) : t.PoolBalanced := by
  have hb : ∀ b ∈ r.outBuffer, (s.removeRequest r.ticket).owner b = some .queued := h.owner_of_queued hr
  have hqueued : s.queuedBuffers.Perm (r.outBuffer.toList ++ t.queuedBuffers) := by
    rw [State.queuedBuffers, State.queuedBuffers, hqueue, ← filterMap_outBuffer_cons]
    exact (State.removeRequest_perm hr hnodup).filterMap _
  rw [State.changeOwnerOpt_eq new hb] at howners hfree
  unfold State.PoolBalanced
  rw [howners, hfree, hline, hresults]
  rcases hnew with rfl | rfl
  · exact Balanced.transferOpt h hb nofun (fun _ => hqueued) (fun _ => List.perm_append_comm)
      (fun o _ _ => by cases o <;> trivial)
  · exact Balanced.transferOpt h hb nofun (fun _ => hqueued) (fun _ => .rfl) (fun o _ _ => by cases o <;> trivial)

/-- The out buffer of the transaction in flight passes on, and then its answer buffer: no LINE buffer is left (R65,
R102). -/
theorem State.PoolBalanced.dispose {t : State} {c : Context} {outNew answerNew : Ownership} (hc : s.context = some c)
    (hout : outNew = .free ∨ outNew = .queued) (hanswer : answerNew = .free ∨ answerNew = .result)
    (howners : t.owners = ((s.changeOwner? c.outBuffer .line outNew).changeOwner? c.answerBuffer .line answerNew).owners)
    (hfree : t.freeList =
      ((s.changeOwner? c.outBuffer .line outNew).changeOwner? c.answerBuffer .line answerNew).freeList)
    (hqueued : t.queuedBuffers.Perm ((if outNew = .queued then c.outBuffer.toList else []) ++ s.queuedBuffers))
    (hline : t.lineBuffers = [])
    (hresults : t.resultBuffers = s.resultBuffers ++ if answerNew = .result then c.answerBuffer.toList else []) :
    t.PoolBalanced := by
  have hheld := State.lineBuffers_of_flight hc
  have hfirst : Balanced (s.changeOwner? c.outBuffer .line outNew).owners
      (ledgerOf (s.changeOwner? c.outBuffer .line outNew).freeList t.queuedBuffers c.answerBuffer.toList
        s.resultBuffers) := by
    rw [State.changeOwnerOpt_eq outNew (h.owner_of_out hc)]
    rcases hout with rfl | rfl
    · refine Balanced.transferOpt (h.perm (ledger' := ledgerOf s.freeList t.queuedBuffers s.lineBuffers s.resultBuffers)
        ?_) (h.owner_of_out hc) nofun (fun _ => List.Perm.of_eq hheld) (fun _ => List.perm_append_comm)
        (fun o _ _ => by cases o <;> trivial)
      rintro (_ | _ | _ | _ | _) -
      · rfl
      · rfl
      · exact hqueued.symm
      · rfl
      · rfl
    · exact Balanced.transferOpt h (h.owner_of_out hc) nofun (fun _ => List.Perm.of_eq hheld) (fun _ => hqueued)
        (fun o _ _ => by cases o <;> trivial)
  have hb : ∀ b ∈ c.answerBuffer, (s.changeOwner? c.outBuffer .line outNew).owner b = some .line := fun b hb =>
    ((hfirst.2 .line nofun).2 b).1 (Option.mem_toList.2 hb)
  rw [State.changeOwnerOpt_eq answerNew hb] at howners hfree
  unfold State.PoolBalanced
  rw [howners, hfree, hline, hresults]
  rcases hanswer with rfl | rfl
  · exact Balanced.transferOpt hfirst hb nofun (fun _ => List.Perm.of_eq (List.append_nil _).symm)
      (fun _ => List.perm_append_comm) (fun o _ _ => by cases o <;> simp_all [ledgerOf])
  · exact Balanced.transferOpt hfirst hb nofun (fun _ => List.Perm.of_eq (List.append_nil _).symm)
      (fun _ => List.perm_append_comm) (fun o _ _ => by cases o <;> trivial)

/-- The head of the free list passes to the transaction in flight (R115). -/
theorem State.PoolBalanced.fly {t : State} (howners : t.owners = (s.takeHead .line).owners)
    (hfree : t.freeList = (s.takeHead .line).freeList) (hqueue : t.queue = s.queue)
    (hline : t.lineBuffers = s.freeList.head?.toList ++ s.lineBuffers) (hresults : t.results = s.results) :
    t.PoolBalanced := by
  unfold State.PoolBalanced State.queuedBuffers State.resultBuffers
  rw [howners, hfree, hqueue, hline, hresults]
  cases hlist : s.freeList with
  | nil => rwa [State.takeHead_nil _ hlist]
  | cons b rest =>
    have hb : s.owner b = some .free := ((h.2 .free nofun).2 b).1 (by simp [ledgerOf, hlist])
    rw [State.takeHead_cons _ hlist]
    exact Balanced.transfer h hb nofun (fun _ => by simp [ledgerOf, hlist]) (fun _ => .rfl)
      (fun o _ _ => by cases o <;> trivial)

/-- A request goes onto the line: the head of the free list, where it needs one, and then its out buffer pass to the
transaction (R62). -/
theorem State.PoolBalanced.dispatchRequest {r : Request} (hr : r ∈ s.queue)
    (hnodup : (s.queue.map (·.ticket)).Nodup) (hidle : s.context = none) : (s.dispatchRequest r).PoolBalanced := by
  obtain ⟨c, hc, hout, hanswer⟩ : ∃ c, (s.dispatchRequest r).context = some c ∧ c.outBuffer = r.outBuffer ∧
      c.answerBuffer = if r.needsBuffer then s.freeList.head? else none := ⟨_, rfl, rfl, rfl⟩
  have hnothing := State.lineBuffers_of_idle hidle
  have hbuffers : ∀ x : State, x.context = some { c with outBuffer := none } → x.lineBuffers = c.answerBuffer.toList :=
    fun x hx => by rw [State.lineBuffers_of_flight hx]; rfl
  obtain ⟨u, hu⟩ : ∃ u, u = if r.needsBuffer then s.takeHead .line else s := ⟨_, rfl⟩
  have hqueue : u.queue = s.queue := by rw [hu]; split <;> simp
  have hresults : u.results = s.results := by rw [hu]; split <;> simp
  have hmiddle : State.PoolBalanced { u with context := some { c with outBuffer := none } } := by
    have hline := hbuffers { u with context := some { c with outBuffer := none } } rfl
    split at hu <;> rename_i hneeds
    · rw [if_pos hneeds] at hanswer
      exact h.fly (by rw [← hu]) (by rw [← hu]) hqueue
        (by rw [hline, hanswer, hnothing, List.append_nil]) hresults
    · rw [if_neg hneeds] at hanswer
      subst hu
      exact h.of_eq rfl rfl rfl (by rw [hline, hanswer, hnothing]; rfl) rfl
  obtain ⟨htakenOwners, htakenFree⟩ := s.dispatchTaken_pool r
  obtain ⟨howners, hfree⟩ := State.changeOwnerOpt_pool
    (s := State.removeRequest { u with context := some { c with outBuffer := none } } r.ticket) (t := s.dispatchTaken r)
    (by rw [htakenOwners, ← hu]; rfl) (by rw [htakenFree, ← hu]; rfl) r.outBuffer .queued .line
  refine hmiddle.dequeue (t := s.dispatchRequest r) (hqueue ▸ hr) (hqueue ▸ hnodup) (.inr rfl) howners hfree ?_ ?_ ?_
  · simp [hqueue]
  · rw [State.lineBuffers_of_flight hc, hbuffers _ rfl, if_pos rfl, hout]
  · simp [State.resultBuffers, hresults]

/-- A poll or probe goes onto the line with the head of the free list (R63). -/
theorem State.PoolBalanced.dispatchPoll (a : Nat) (hidle : s.context = none) : (s.dispatchPoll a).PoolBalanced := by
  obtain ⟨howners, hfree⟩ := State.takeHead_pool (s := s) (t := { s with reserved := true }) rfl rfl .line
  refine h.fly ?_ ?_ (by simp) ?_ (by simp)
  · rw [← howners]
    simp [State.dispatchPoll]
  · rw [← hfree]
    simp [State.dispatchPoll]
  · rw [State.lineBuffers_of_idle hidle, List.append_nil]
    rfl

/-- A completion at dispatch frees the out buffer, and its record holds none (R64). -/
theorem State.PoolBalanced.complete {r : Request} (hr : r ∈ s.queue) (hnodup : (s.queue.map (·.ticket)).Nodup) :
    (s.completeAtDispatch r).PoolBalanced := by
  refine h.dequeue hr hnodup (.inl rfl) rfl rfl (by simp) ?_ ?_
  · simp [State.lineBuffers]
  · simp [State.resultBuffers, Request.completionRecord]

/-- A closing frees the buffers in flight, save an answer buffer that its record carries (R102). -/
theorem State.PoolBalanced.close {c : Context} {record : Option ResultRecord} (hc : s.context = some c)
    (hrecord : ∀ r ∈ record, r.buffer = none ∨ r.buffer = c.answerBuffer) (clearSync : Bool) :
    (s.close c record clearSync).PoolBalanced := by
  obtain ⟨howners, hfree⟩ := s.close_pool c record clearSync
  have hqueued : (s.close c record clearSync).queuedBuffers.Perm ([] ++ s.queuedBuffers) := by
    simp [State.queuedBuffers]
  have hline := State.lineBuffers_of_idle (s.close_context c record clearSync)
  have hresults : (s.close c record clearSync).resultBuffers =
      s.resultBuffers ++ (record.bind ResultRecord.buffer).toList := by
    rw [State.resultBuffers, State.close_results, List.filterMap_append]
    cases record with
    | none => rfl
    | some r => exact congrArg _ (filterMap_buffer_cons _ [] |>.trans (List.append_nil _))
  cases hbuffer : record.bind ResultRecord.buffer with
  | none =>
    rw [hbuffer] at howners hfree hresults
    exact h.dispose hc (.inl rfl) (.inl rfl) howners hfree hqueued hline hresults
  | some b =>
    obtain ⟨r, hr, hrb⟩ := Option.bind_eq_some_iff.1 hbuffer
    have hanswer : c.answerBuffer = some b := by
      rcases hrecord r hr with hnone | heq
      · rw [hnone] at hrb
        cases hrb
      · rw [← heq, hrb]
    rw [hbuffer] at howners hfree hresults
    exact h.dispose hc (.inl rfl) (.inr rfl) howners hfree hqueued hline (by rw [hresults, if_pos rfl, hanswer])

/-- A BUSY return makes the out buffer QUEUED again and frees the answer buffer (R65). -/
theorem State.PoolBalanced.busyReturn {c : Context} (hc : s.context = some c) : (s.busyReturn c).PoolBalanced := by
  refine h.dispose (outNew := .queued) (answerNew := .free) hc (.inr rfl) (.inl rfl) rfl rfl ?_ rfl ?_
  · exact ((placeAtHead_perm ..).filterMap _).trans (List.Perm.of_eq (filterMap_outBuffer_cons ..))
  · simp [State.resultBuffers, State.busyReturn]

end Pool

/-- A pool with every buffer in the free list and no holder. -/
theorem State.PoolBalanced.of_free {s : State} (howners : s.owners = List.replicate 64 .free)
    (hfree : s.freeList = List.range 64) (hqueue : s.queue = []) (hidle : s.context = none) (hresults : s.results = []) :
    s.PoolBalanced := by
  unfold State.PoolBalanced State.queuedBuffers State.resultBuffers
  rw [howners, hfree, hqueue, hresults, State.lineBuffers_of_idle hidle]
  have howner : ∀ (b : Nat) (o : Ownership), (List.replicate 64 Ownership.free)[b]? = some o ↔ b < 64 ∧ .free = o :=
    fun b o => by
      rw [List.getElem?_replicate]
      split <;> simp_all
  refine ⟨List.length_replicate, fun o ho => ?_⟩
  simp only [howner]
  cases o with
  | host => exact absurd rfl ho
  | free => exact ⟨List.nodup_range, fun b => by simp [ledgerOf]⟩
  | queued => exact ⟨List.nodup_nil, fun b => by simp [ledgerOf]⟩
  | line => exact ⟨List.nodup_nil, fun b => by simp [ledgerOf]⟩
  | result => exact ⟨List.nodup_nil, fun b => by simp [ledgerOf]⟩

/-- Every move keeps the ownerships in agreement with the holders. -/
theorem State.PoolBalanced.move {s t : State} (h : s.PoolBalanced) (htickets : s.TicketsOk)
    (hinit : s.InitialisationOk) (hmove : s.Move t) : t.PoolBalanced := by
  have hnodup : (s.queue.map (·.ticket)).Nodup := htickets.2.1.of_append_left
  cases hmove with
  | hold hst => exact h.of_holds hst
  | allocate => exact h.allocate
  | release b => exact h.release b
  | enqueue a hunit hbuffer hspace => exact h.enqueue hbuffer
  | dequeue r hr =>
    exact h.dequeue hr hnodup (.inl rfl) rfl rfl (by simp) (by simp [State.lineBuffers]) (by simp [State.resultBuffers])
  | handOver r rest shown hr => exact h.handOver shown hr
  | close c record clearSync hc hrecord => exact h.close hc hrecord clearSync
  | busyReturn c hc ho hspace => exact h.busyReturn hc
  | complete r hr hidle hslot => exact h.complete hr hnodup
  | dispatchRequest r hr hidle hslot => exact h.dispatchRequest hr hnodup hidle
  | dispatchPoll a hmode hidle hslot => exact h.dispatchPoll a hidle
  | endHolds ended =>
    refine h.of_eq rfl rfl ?_ rfl rfl
    rw [State.queuedBuffers, List.filterMap_map, State.queuedBuffers]
    refine List.filterMap_congr fun r _ => ?_
    simp only [Function.comp]
    split <;> rfl
  | reset hst => exact State.PoolBalanced.of_holds (.of_free rfl rfl rfl rfl rfl) hst
  | endInitialisation =>
    unfold State.endInitialisation
    split
    · rename_i hunit
      obtain ⟨-, hqueue, hidle, hresults⟩ := hinit hunit
      exact .of_free rfl rfl hqueue hidle hresults
    all_goals exact h

/-! ## The tickets (R44) -/

/-- The ticket of a request in flight. -/
theorem State.flightTicket_of_request {s : State} {c : Context} (hc : s.context = some c) (ho : c.origin = .request) :
    s.flightTicket = [c.ticket] := by
  simp only [State.flightTicket, hc, ho, if_true]

/-- A poll or probe in flight has no ticket. -/
theorem State.flightTicket_of_poll {s : State} {c : Context} (hc : s.context = some c) (ho : c.origin ≠ .request) :
    s.flightTicket = [] := by
  simp only [State.flightTicket, hc, if_neg ho]

/-- With nothing in flight there is no ticket in flight. -/
theorem State.flightTicket_of_idle {s : State} (hc : s.context = none) : s.flightTicket = [] := by
  simp only [State.flightTicket, hc]

/-- Tickets of which some have been given back. -/
theorem State.TicketsOk.of_subperm {s t : State} (h : s.TicketsOk) (hlen : t.queue.length ≤ 16)
    (htickets : t.tickets.Subperm s.tickets) (hcounter : t.ticketCounter = s.ticketCounter) : t.TicketsOk := by
  obtain ⟨-, hnodup, hrange, hlow, hhigh⟩ := h
  obtain ⟨kept, hperm, hsub⟩ := htickets
  exact ⟨hlen, hperm.nodup_iff.1 (hnodup.sublist hsub), fun x hx => hrange x (hsub.subset (hperm.mem_iff.2 hx)),
    hcounter ▸ hlow, hcounter ▸ hhigh⟩

/-- Tickets that depend on the queue and the context alone. -/
theorem State.TicketsOk.of_eq {s t : State} (h : s.TicketsOk) (hqueue : t.queue = s.queue)
    (hcontext : t.context = s.context) (hcounter : t.ticketCounter = s.ticketCounter) : t.TicketsOk := by
  refine h.of_subperm (hqueue ▸ h.1) ?_ hcounter
  rw [State.tickets, State.flightTicket, hqueue, hcontext]
  exact .refl _

/-- The ticket of a removed record has left the queue. -/
theorem State.TicketsOk.dequeue {s t : State} (h : s.TicketsOk) {r : Request}
    (hqueue : t.queue = (s.removeRequest r.ticket).queue) (hcontext : t.context = s.context)
    (hcounter : t.ticketCounter = s.ticketCounter) : t.TicketsOk := by
  have hsub : t.queue.Sublist s.queue := hqueue ▸ s.removeRequest_queue_sublist r.ticket
  refine h.of_subperm (hsub.length_le.trans h.1) ?_ hcounter
  rw [State.tickets, State.flightTicket, hcontext]
  exact ((hsub.map _).append (.refl _)).subperm

/-- The tickets depend on what is held alone. -/
theorem State.TicketsOk.of_holds {s t : State} (h : s.TicketsOk) (hst : s.HoldsAs t) : t.TicketsOk := by
  obtain ⟨-, -, hqueue, hcounter, -, -, hcontext⟩ := hst.fields
  refine h.of_subperm (hqueue ▸ h.1) ?_ hcounter
  have hflight : t.flightTicket = s.flightTicket := by
    unfold State.flightTicket
    cases hs : s.context with
    | none =>
      rw [hs, Option.map_none, Option.map_eq_none_iff] at hcontext
      rw [hcontext]
    | some c =>
      rw [hs, Option.map_some, Option.map_eq_some_iff] at hcontext
      obtain ⟨c', ht, hholding⟩ := hcontext
      simp only [Context.holding, Prod.mk.injEq] at hholding
      simp [ht, hholding]
  rw [State.tickets, hqueue, hflight]
  exact .refl _

/-- SUBMIT's ticket joins the others (R44, R48). -/
theorem State.TicketsOk.enqueue {s : State} (h : s.TicketsOk) (hspace : s.queue.length < 16) (a : Args) :
    (s.enqueue a).TicketsOk := by
  have hfree := State.freeTicket_not_mem h
  have hticket := s.freeTicket_range 255 ⟨h.2.2.2.1, h.2.2.2.2⟩
  obtain ⟨-, hnodup, hrange, -⟩ := h
  have hflight : (s.enqueue a).flightTicket = s.flightTicket := by simp [State.flightTicket, State.enqueue]
  have hperm : (s.enqueue a).tickets.Perm (s.freeTicket 255 s.ticketCounter :: s.tickets) := by
    rw [State.tickets, hflight]
    exact ((placeAtTail_perm ..).map _).append_right _
  refine ⟨(placeAtTail_length ..).trans_le hspace, hperm.nodup_iff.2 (List.nodup_cons.2 ⟨hfree, hnodup⟩),
    fun x hx => ?_, nextTicket_range _⟩
  rcases List.mem_cons.1 (hperm.mem_iff.1 hx) with rfl | hx
  · exact hticket
  · exact hrange x hx

/-- A dispatch takes the request's ticket from the queue into flight (R62). -/
theorem State.TicketsOk.dispatchRequest {s : State} (h : s.TicketsOk) {r : Request} (hr : r ∈ s.queue)
    (hidle : s.context = none) : (s.dispatchRequest r).TicketsOk := by
  have hsub := s.removeRequest_queue_sublist r.ticket
  have hflight : (s.dispatchRequest r).flightTicket = [r.ticket] := rfl
  have hperm : (s.dispatchRequest r).tickets.Perm s.tickets := by
    rw [State.tickets, hflight, State.dispatchRequest_queue, State.tickets, State.flightTicket_of_idle hidle,
      List.append_nil]
    exact (List.perm_append_singleton ..).trans ((State.removeRequest_perm hr h.2.1.of_append_left).map _).symm
  refine h.of_subperm ?_ hperm.subperm ?_
  · rw [State.dispatchRequest_queue]
    exact hsub.length_le.trans h.1
  · unfold State.dispatchRequest
    split <;> simp

/-- Every move keeps the tickets apart. -/
theorem State.TicketsOk.move {s t : State} (h : s.TicketsOk) (hmove : s.Move t) : t.TicketsOk := by
  cases hmove with
  | hold hst => exact h.of_holds hst
  | allocate => exact h.of_eq (by simp) (by simp) (by simp)
  | release b => exact h.of_eq (by simp) (by simp) (by simp)
  | enqueue a hunit hbuffer hspace => exact h.enqueue hspace a
  | dequeue r hr => exact h.dequeue (r := r) (by simp) (by simp) (by simp)
  | handOver r rest shown hr => exact h.of_eq (by simp) (by simp) (by simp)
  | close c record clearSync hc hrecord =>
    refine h.of_subperm (by simpa using h.1) ?_ (by simp)
    rw [State.tickets, State.close_queue, State.flightTicket_of_idle (s.close_context ..)]
    exact ((List.Sublist.refl _).append (List.nil_sublist _)).subperm
  | busyReturn c hc ho hspace =>
    refine h.of_subperm ((placeAtHead_length ..).trans_le hspace) ?_ (by simp [State.busyReturn])
    rw [State.tickets, State.flightTicket_of_idle rfl, State.tickets, State.flightTicket_of_request hc ho,
      List.append_nil]
    exact (((placeAtHead_perm ..).map _).trans (List.perm_append_singleton ..).symm).subperm
  | complete r hr hidle hslot =>
    exact h.dequeue (r := r) (by simp) (by simp) (by simp [State.completeAtDispatch])
  | dispatchRequest r hr hidle hslot => exact h.dispatchRequest hr hidle
  | dispatchPoll a hmode hidle hslot =>
    have horigin : (s.station a).pollOrigin ≠ .request := by
      unfold Station.pollOrigin
      split <;> exact nofun
    refine h.of_subperm (by simpa using h.1) ?_ (by simp [State.dispatchPoll])
    rw [State.tickets, State.dispatchPoll_queue, State.flightTicket_of_poll rfl horigin]
    exact ((List.Sublist.refl _).append (List.nil_sublist _)).subperm
  | endHolds ended =>
    refine h.of_subperm (by simpa using h.1) (List.Perm.subperm (.of_eq ?_)) rfl
    simp only [State.tickets, State.flightTicket, List.map_map]
    refine congrArg (· ++ _) (List.map_congr_left fun r _ => ?_)
    simp only [Function.comp]
    split <;> rfl
  | reset hst => exact State.TicketsOk.of_holds (by decide) hst
  | endInitialisation =>
    unfold State.endInitialisation
    split <;> exact h

/-! ## The initialisation (R155) -/

/-- Outside an initialisation nothing is asked for. -/
theorem State.InitialisationOk.of_unit {s t : State} (hs : s.unit ≠ .initialising) (ht : t.unit = s.unit) :
    t.InitialisationOk := fun hinit => absurd (ht ▸ hinit) hs

/-- The initialisation, where nothing of it has changed. -/
theorem State.InitialisationOk.of_eq {s t : State} (h : s.InitialisationOk) (hunit : t.unit = s.unit)
    (hmode : t.mode = s.mode) (hqueue : t.queue = s.queue) (hcontext : t.context = s.context)
    (hresults : t.results = s.results) : t.InitialisationOk := by
  rwa [State.InitialisationOk, hunit, hmode, hqueue, hcontext, hresults]

/-- Every move leaves an initialisation with nothing queued, in flight or posted. -/
theorem State.InitialisationOk.move {s t : State} (h : s.InitialisationOk) (hmove : s.Move t) : t.InitialisationOk := by
  have hqueued : ∀ r, r ∈ s.queue → s.unit ≠ .initialising := fun r hr hinit => by
    rw [(h hinit).2.1] at hr
    cases hr
  have hflying : ∀ c, s.context = some c → s.unit ≠ .initialising := fun c hc hinit => by
    rw [(h hinit).2.2.1] at hc
    cases hc
  cases hmove with
  | hold hst =>
    intro hinit
    obtain ⟨hunit, hmode⟩ := hst.2 hinit
    obtain ⟨hstopped, hempty, hidle, hnone⟩ := h hunit
    obtain ⟨-, -, hqueue, -, hresults, -, hcontext⟩ := hst.fields
    rw [hidle, Option.map_none, Option.map_eq_none_iff] at hcontext
    exact ⟨hmode hstopped, hqueue.trans hempty, hcontext, hresults.trans hnone⟩
  | allocate => exact h.of_eq (by simp) (by simp) (by simp) (by simp) (by simp)
  | release b => exact h.of_eq (by simp) (by simp) (by simp) (by simp) (by simp)
  | enqueue a hunit hbuffer hspace => exact .of_unit (s := s) (by simp [hunit]) (by simp [State.enqueue])
  | dequeue r hr => exact .of_unit (hqueued r hr) (by simp)
  | handOver r rest shown hr =>
    refine .of_unit (s := s) (fun hinit => ?_) (by simp)
    rw [(h hinit).2.2.2] at hr
    cases hr
  | close c record clearSync hc hrecord => exact .of_unit (hflying c hc) (by simp)
  | busyReturn c hc ho hspace => exact .of_unit (hflying c hc) (by simp [State.busyReturn])
  | complete r hr hidle hslot => exact .of_unit (hqueued r hr) (by simp [State.completeAtDispatch])
  | dispatchRequest r hr hidle hslot =>
    refine .of_unit (hqueued r hr) ?_
    unfold State.dispatchRequest
    split <;> simp
  | dispatchPoll a hmode hidle hslot =>
    refine .of_unit (fun hinit => ?_) (show (s.dispatchPoll a).unit = s.unit by simp [State.dispatchPoll])
    rw [(h hinit).1] at hmode
    cases hmode
  | endHolds ended =>
    intro hinit
    obtain ⟨hstopped, hempty, hidle, hnone⟩ := h hinit
    exact ⟨hstopped, by rw [hempty]; rfl, hidle, hnone⟩
  | reset hst =>
    intro hinit
    obtain ⟨-, hmode⟩ := hst.2 hinit
    obtain ⟨-, -, hqueue, -, hresults, -, hcontext⟩ := hst.fields
    exact ⟨hmode rfl, hqueue, Option.map_eq_none_iff.1 hcontext, hresults⟩
  | endInitialisation =>
    unfold State.endInitialisation
    split
    · exact nofun
    all_goals exact h

/-- Settles O55: a step is a chain of moves, and each keeps the pool balanced, the tickets apart, and an initialisation
empty. -/
theorem stepKeepsBuffers : Obligations.StepKeepsBuffers := by
  intro s t hs hstep
  rw [State.buffersOk_iff] at hs ⊢
  refine (step_moves hstep).keeps (P := fun s => s.PoolBalanced ∧ s.TicketsOk ∧ s.InitialisationOk) hs ?_
  rintro x y hmove ⟨hpool, htickets, hinit⟩
  exact ⟨hpool.move htickets hinit hmove, htickets.move hmove, hinit.move hmove⟩

end Sys2Proof.Machine
end

section
/-! SUPPORT. The commands of the Request Queue: the tests of SUBMIT and its queueing, and CANCEL of a queued request and
of the one in flight. -/

namespace Sys2Proof.Machine

/-! ## The tests of SUBMIT (R46, R47) -/

/-- The arguments pass their tests exactly where none of R46's cases holds. -/
theorem submitArgumentsOk_iff (a : Args) : submitArgumentsOk a = true ↔ ¬ a.SubmitFaulty := by
  have hstation : a.arg0 = 0 ↔ a.arg0.toNat = 0 := by rw [← BitVec.toNat_inj]; rfl
  have hwrite : a.arg1 = 1 ↔ a.arg1.toNat = 1 := by rw [← BitVec.toNat_inj]; rfl
  have hread : a.arg1 = 2 ↔ a.arg1.toNat = 2 := by rw [← BitVec.toNat_inj]; rfl
  have hexchange : a.arg1 = 3 ↔ a.arg1.toNat = 3 := by rw [← BitVec.toNat_inj]; rfl
  have hnone : a.arg2 = 0xFF ↔ a.arg2.toNat = 255 := by rw [← BitVec.toNat_inj]; rfl
  have hempty : a.arg3 = 0 ↔ a.arg3.toNat = 0 := by rw [← BitVec.toNat_inj]; rfl
  have hbyte := a.arg2.isLt
  simp only [submitArgumentsOk, Args.SubmitFaulty, Bool.and_eq_true, Bool.or_eq_true, decide_eq_true_eq, beq_iff_eq,
    bne_iff_ne, ne_eq, hstation, hwrite, hread, hexchange, hnone, hempty]
  omega

/-- The named buffer, if any, is HOST. -/
theorem State.submitBufferOk_iff (s : State) (a : Args) :
    s.submitBufferOk a = true ↔ a.arg2 = 0xFF ∨ s.owner a.arg2.toNat = some .host := by
  unfold State.submitBufferOk bufferOfArg
  by_cases h : a.arg2 = 0xFF
  · rw [if_pos h]
    exact iff_of_true rfl (.inl h)
  · rw [if_neg h]
    exact beq_iff_eq.trans (or_iff_right h).symm

/-- Faulty arguments are refused first (R46). -/
theorem submitWork_of_faulty {s : State} (h : s.latch.SubmitFaulty) : submitWork s = s.refuse .badArgument := by
  have harguments : submitArgumentsOk s.latch = false := by
    rw [← Bool.not_eq_true, submitArgumentsOk_iff, not_not]
    exact h
  rw [submitWork, harguments, Bool.not_false, if_pos rfl]

/-- A buffer that is not HOST is refused next (R47). -/
theorem submitWork_of_not_host {s : State} (h : ¬ s.latch.SubmitFaulty) (hnamed : s.latch.arg2 ≠ 0xFF)
    (howner : s.owner s.latch.arg2.toNat ≠ some .host) : submitWork s = s.refuse .notHost := by
  have hbuffer : s.submitBufferOk s.latch = false := by
    rw [← Bool.not_eq_true, State.submitBufferOk_iff]
    exact not_or.2 ⟨hnamed, howner⟩
  rw [submitWork, (submitArgumentsOk_iff s.latch).2 h, hbuffer, Bool.not_true, Bool.not_false,
    if_neg Bool.false_ne_true, if_pos rfl]

/-- A full queue is refused last (R47). -/
theorem submitWork_of_full {s : State} (h : ¬ s.latch.SubmitFaulty)
    (hbuffer : s.latch.arg2 = 0xFF ∨ s.owner s.latch.arg2.toNat = some .host) (hfull : 16 ≤ s.queue.length) :
    submitWork s = s.refuse .queueFull := by
  have hcapacity : Config.queueCapacity ≤ s.queue.length := hfull
  rw [submitWork, (submitArgumentsOk_iff s.latch).2 h, (s.submitBufferOk_iff s.latch).2 hbuffer, Bool.not_true,
    if_neg Bool.false_ne_true, if_neg Bool.false_ne_true, if_pos hcapacity]

/-- A SUBMIT that passes its tests queues its request and looks (R48). -/
theorem submitWork_of_accepted {s : State} (h : ¬ s.latch.SubmitFaulty)
    (hbuffer : s.latch.arg2 = 0xFF ∨ s.owner s.latch.arg2.toNat = some .host) (hspace : s.queue.length < 16) :
    submitWork s =
      { state := (s.enqueue s.latch).look
        code := .ok
        replies := Replies.of (s.freeTicket 255 s.ticketCounter) (s.enqueue s.latch).queue.length 0 0 } := by
  have hcapacity : ¬ Config.queueCapacity ≤ s.queue.length := Nat.not_le.2 hspace
  rw [submitWork, (submitArgumentsOk_iff s.latch).2 h, (s.submitBufferOk_iff s.latch).2 hbuffer, Bool.not_true,
    if_neg Bool.false_ne_true, if_neg Bool.false_ne_true, if_neg hcapacity]

/-- Settles O11: each refusal by the first test that fails. -/
theorem submitRefusals : Obligations.SubmitRefusals := by
  intro s htakes
  have hexec : exec .submit s = .next (s.hostCommand 0x03 submitWork) := rfl
  rw [hexec, State.hostCommand_of_takes htakes]
  refine ⟨fun hfaulty => ?_, fun hok hnamed howner => ?_, fun hok hbuffer hfull => ?_⟩
  · rw [submitWork_of_faulty (s := s.handedOver 0x03) hfaulty]
    rfl
  · rw [submitWork_of_not_host (s := s.handedOver 0x03) hok hnamed howner]
    rfl
  · rw [submitWork_of_full (s := s.handedOver 0x03) hok hbuffer hfull]
    rfl

/-! ## The queueing (R43, R45, R48) -/

/-- The ticket depends on the outstanding tickets alone. -/
theorem State.freeTicket_congr {s t : State} (h : ∀ x, t.ticketInUse x = s.ticketInUse x) (fuel ticket : Nat) :
    t.freeTicket fuel ticket = s.freeTicket fuel ticket := by
  induction fuel generalizing ticket with
  | zero => rfl
  | succ n ih => simp only [State.freeTicket, h, ih]

/-- The call kind of an argument that passes R46's tests (R45). -/
theorem callKind_ofArg {x : Byte} (h : ¬ (¬ x = 1 ∧ ¬ x = 2 ∧ ¬ x = 3)) :
    (CallKind.ofArg x.toNat).getD .write = if x = 1 then .write else if x = 2 then .read else .exchange := by
  obtain rfl | rfl | rfl : x = 1 ∨ x = 2 ∨ x = 3 := by tauto
  · rfl
  · rfl
  · rfl

/-- The class bit of an argument of 0 or 1 (R45). -/
theorem beq_one_eq_getLsbD {x : Byte} (h : x.toNat ≤ 1) : (x == 1) = x.getLsbD 0 := by
  obtain rfl | rfl : x = 0 ∨ x = 1 := by
    rcases Nat.le_one_iff_eq_zero_or_eq_one.1 h with h | h
    · exact .inl (BitVec.eq_of_toNat_eq h)
    · exact .inr (BitVec.eq_of_toNat_eq h)
  · rfl
  · rfl

/-- The queueing of an accepted SUBMIT, field by field (R48). -/
theorem State.enqueue_eq {s : State} {a : Args} {r : Request} (h : UrgentFirst s.queue)
    (hbuffer : a.arg2 = 0xFF ∨ s.owner a.arg2.toNat = some .host)
    (hr : r = submitRecord a (s.freeTicket 255 s.ticketCounter)) :
    s.enqueue a = { s with
      queue := urgentOf s.queue ++ (if r.urgent then r :: normalOf s.queue else normalOf s.queue ++ [r])
      ticketCounter := nextTicket r.ticket
      owners := if a.arg2 = 0xFF then s.owners else s.owners.set a.arg2.toNat .queued } := by
  have hb : ∀ b ∈ bufferOfArg a.arg2, s.owner b = some .host := by
    unfold bufferOfArg
    split
    · exact nofun
    · rintro b ⟨⟩
      exact hbuffer.resolve_left ‹_›
  have howners : (bufferOfArg a.arg2).elim s.owners (s.owners.set · .queued) =
      if a.arg2 = 0xFF then s.owners else s.owners.set a.arg2.toNat .queued := by
    unfold bufferOfArg
    split <;> rfl
  simp only [State.enqueue, State.changeOwnerOpt_eq _ hb, howners, ← hr, placeAtTail_eq h]
  rw [hr]
  rfl

/-- The record of arguments that pass their tests, field by field (R45). -/
theorem submitRecord_eq {a : Args} (h : ¬ a.SubmitFaulty) (ticket : Nat) :
    submitRecord a ticket =
      { ticket := ticket
        station := a.arg0.toNat
        kind := if a.arg1 = 1 then .write else if a.arg1 = 2 then .read else .exchange
        urgent := a.arg5.getLsbD 0
        retryLimit := a.arg4.toNat
        outBuffer := if a.arg2 = 0xFF then none else some a.arg2.toNat
        outLength := a.arg3.toNat
        attemptsMade := 0
        holdUntil := none } := by
  simp only [Args.SubmitFaulty, not_or] at h
  obtain ⟨-, hkind, -, -, -, hclass, -⟩ := h
  rw [submitRecord, callKind_ofArg hkind, beq_one_eq_getLsbD (Nat.le_of_not_lt hclass), bufferOfArg]

/-- Settles O12: the record is the one that the arguments make, and its place is that of its class. -/
theorem submitQueuesRequest : Obligations.SubmitQueuesRequest := by
  intro s r htakes hok hbuffer hqueue hspace hr
  have hexec : exec .submit s = .next (s.hostCommand 0x03 submitWork) := rfl
  have hticket : (s.handedOver 0x03).freeTicket 255 (s.handedOver 0x03).ticketCounter = r.ticket := by
    rw [hr]
    exact State.freeTicket_congr (s := s) (t := s.handedOver 0x03) (fun _ => rfl) _ _
  have hrecord : r = submitRecord (s.handedOver 0x03).latch
      ((s.handedOver 0x03).freeTicket 255 (s.handedOver 0x03).ticketCounter) := by
    rw [submitRecord_eq (a := (s.handedOver 0x03).latch) hok, hticket, hr]
    rfl
  have hlength : ((s.handedOver 0x03).enqueue (s.handedOver 0x03).latch).queue.length = s.queue.length + 1 :=
    placeAtTail_length ..
  rw [hexec, State.hostCommand_of_takes htakes, submitWork_of_accepted (s := s.handedOver 0x03) hok hbuffer hspace,
    hlength, hticket,
    State.enqueue_eq (s := s.handedOver 0x03) (a := (s.handedOver 0x03).latch) hqueue.2 hbuffer hrecord]
  rfl

/-! ## CANCEL (R50 to R53) -/

/-- The removal of a queued record: REQUEST_SPACE is raised where 16 records stood (R43). -/
theorem State.removeRequest_eq {s : State} {r : Request} (h : r ∈ s.queue) :
    s.removeRequest r.ticket = { s with
      queue := s.queue.eraseP (·.ticket == r.ticket)
      events := { s.events with requestSpace := s.events.requestSpace || s.queue.length == 16 } } := by
  have hlength : (s.queue.eraseP (·.ticket == r.ticket)).length = s.queue.length - 1 :=
    List.length_eraseP_of_mem h (beq_self_eq_true _)
  have hpos := List.length_pos_of_mem h
  have hevents : (if s.queue.length = Config.queueCapacity ∧
        (s.queue.eraseP (·.ticket == r.ticket)).length + 1 = Config.queueCapacity then s.events.raise .requestSpace
      else s.events) =
      { s.events with requestSpace := s.events.requestSpace || s.queue.length == 16 } := by
    have hcapacity : Config.queueCapacity = 16 := rfl
    rw [hlength, hcapacity]
    by_cases h16 : s.queue.length = 16
    · rw [if_pos (by omega), h16, beq_self_eq_true, Bool.or_true]
      rfl
    · rw [if_neg (by omega), beq_false_of_ne h16, Bool.or_false]
  rw [State.removeRequest, hevents]

/-- CANCEL of a queued ticket (R51). -/
theorem cancelWork_of_queued {s : State} {r : Request} (h0 : s.latch.arg0.toNat ≠ 0)
    (hr : s.queue.find? (·.ticket == s.latch.arg0.toNat) = some r) :
    cancelWork s =
      { state := s.cancelQueued r, code := .cancelled, replies := Replies.of s.latch.arg0.toNat 0 0 0 } := by
  rw [cancelWork, if_neg h0]
  simp only [hr]

/-- CANCEL of a ticket that neither a queued record nor the in-flight request holds (R53). -/
theorem cancelWork_of_unknown {s : State} (h0 : s.latch.arg0.toNat ≠ 0)
    (hqueue : s.queue.find? (·.ticket == s.latch.arg0.toNat) = none)
    (hcontext : ∀ c ∈ s.context, ¬ (c.origin = .request ∧ c.ticket = s.latch.arg0.toNat)) :
    cancelWork s = { state := s, code := .notFound, replies := Replies.of s.latch.arg0.toNat 0 0 0 } := by
  rw [cancelWork, if_neg h0]
  simp only [hqueue]
  cases hc : s.context with
  | none => rfl
  | some c => exact if_neg (hcontext c hc)

/-- CANCEL of the in-flight request, by its phase (R52). -/
theorem cancelWork_of_inFlight {s : State} {c : Context} (h0 : s.latch.arg0.toNat ≠ 0)
    (hqueue : s.queue.find? (·.ticket == s.latch.arg0.toNat) = none) (hc : s.context = some c)
    (horigin : c.origin = .request) (hticket : c.ticket = s.latch.arg0.toNat) :
    cancelWork s =
      if s.phase = .gap ∨ s.phase = .holdoff then
        { state := s.cancelWaiting c, code := .cancelled, replies := Replies.of s.latch.arg0.toNat 1 0 0 }
      else
        { state := { s with context := some { c with cancelPending := true } }, code := .cancelPending,
          replies := Replies.of s.latch.arg0.toNat 1 0 0 } := by
  rw [cancelWork, if_neg h0]
  simp only [hqueue, hc]
  rw [if_pos ⟨horigin, hticket⟩]

/-- The reply of CANCEL shows the ticket of ARG0 back. -/
theorem Replies.of_toNat (x : Byte) (b : Nat) :
    Replies.of x.toNat b 0 0 = ⟨x, BitVec.ofNat 8 b, 0, 0⟩ := by
  rw [Replies.of, byteOf_toNat]
  rfl

/-- The removal of a queued record with its buffer freed (R51). -/
theorem State.cancelQueued_eq {s : State} {r : Request} (hr : r ∈ s.queue)
    (hbuffer : ∀ b ∈ r.outBuffer, s.owner b = some .queued) :
    s.cancelQueued r = State.look { s with
      queue := s.queue.eraseP (·.ticket == r.ticket)
      owners := r.outBuffer.elim s.owners (s.owners.set · .free)
      freeList := s.freeList ++ r.outBuffer.toList
      events := { s.events with requestSpace := s.events.requestSpace || s.queue.length == 16 } } := by
  rw [State.cancelQueued, State.changeOwnerOpt_eq (s := s.removeRequest r.ticket) _ hbuffer, if_pos rfl,
    State.removeRequest_eq hr]

/-- Settles O14: the found record is removed, and its buffer freed. -/
theorem cancelQueuedRequest : Obligations.CancelQueuedRequest := by
  intro s r htakes h0 hr hbuffer
  have hexec : exec .cancel s = .next (s.hostCommand 0x04 cancelWork) := rfl
  have hticket : r.ticket = s.args.arg0.toNat := by simpa using List.find?_some hr
  have hnat : s.args.arg0.toNat ≠ 0 := fun h => h0 (BitVec.eq_of_toNat_eq h)
  rw [hexec, State.hostCommand_of_takes htakes, cancelWork_of_queued (s := s.handedOver 0x04) hnat hr,
    State.cancelQueued_eq (s := s.handedOver 0x04) (List.mem_of_find?_eq_some hr) hbuffer, Replies.of_toNat, hticket]
  cases r.outBuffer with
  | none => rfl
  | some b => rfl

/-- A request whose verdict counts clears the synced flag unless that verdict is a valid answer (R18). -/
theorem Context.clearsSync_of_request {c : Context} (h : c.origin = .request) :
    c.clearsSync true = (c.station != 0 && c.callBits.isSome && !c.hasValidAnswer) := by
  rw [Context.clearsSync, h, Bool.true_and]
  rfl

/-- Settles O15: by the phase where the request in flight has the ticket. -/
theorem cancelInFlightRequest : Obligations.CancelInFlightRequest := by
  intro s ticket htakes hticket
  subst hticket
  have hexec : exec .cancel s = .next (s.hostCommand 0x04 cancelWork) := rfl
  rw [hexec, State.hostCommand_of_takes htakes]
  refine ⟨fun h0 => ?_, fun h0 hqueue => ⟨fun hcontext => ?_, ?_⟩⟩
  · have hwork : cancelWork (s.handedOver 0x04) = (s.handedOver 0x04).refuse .badArgument := if_pos h0
    rw [hwork]
    rfl
  · rw [cancelWork_of_unknown (s := s.handedOver 0x04) h0 hqueue hcontext, Replies.of_toNat]
    rfl
  · intro c closed hc horigin hc_ticket hclosed
    have hearly : (s.handedOver 0x04).closeEarly c .cancelled false true = closed := by
      rw [State.closeEarly_of_request _ _ _ _ horigin, Context.clearsSync_of_request horigin, hclosed]
      rfl
    rw [cancelWork_of_inFlight (s := s.handedOver 0x04) h0 hqueue hc horigin hc_ticket, Replies.of_toNat,
      State.cancelWaiting, hearly]
    refine ⟨fun hgap => ?_, fun hholdoff => ?_, fun hgap hholdoff => ?_⟩
    · have hphase : (s.handedOver 0x04).phase = .gap := hgap
      rw [if_pos (.inl hphase), if_pos hphase]
      rfl
    · have hphase : (s.handedOver 0x04).phase = .holdoff := hholdoff
      rw [if_pos (.inr hphase), if_neg (by rw [hphase]; exact nofun)]
      rfl
    · have hphase : ¬ ((s.handedOver 0x04).phase = .gap ∨ (s.handedOver 0x04).phase = .holdoff) :=
        not_or.2 ⟨hgap, hholdoff⟩
      rw [if_neg hphase]
      rfl

end Sys2Proof.Machine
end

section
/-! SUPPORT. Collisions and the timers of the line and of the Timebase: the collision rule, the ends of SETTLING and
HOLDOFF, and the ticks. -/

namespace Sys2Proof.Machine

/-! ## The collision (R91) -/

/-- Settles O39: below the fourth collision by the pending cancel, at the fourth by the origin. -/
theorem collisionRule : Obligations.CollisionRule := by
  intro s held raised c counted clear hc hcounted hheld hraised hclear
  have hclears (horigin : c.origin = .request) : c.collided.clearsSync true = clear :=
    (Context.clearsSync_of_request (c := c.collided) horigin).trans hclear.symm
  have hheld' : s.collisionHeld c = held := by rw [hheld, hcounted]; rfl
  have hraised' : s.collisionRaised c = raised := by rw [hraised, hheld, hcounted]; rfl
  have hcounted' : c.collided = counted := hcounted.symm
  refine ⟨fun hlow hcancel => ?_, fun hlow hcancel horigin => ?_, fun hlow hcancel horigin => ?_,
    fun hlimit horigin => ?_, fun hlimit horigin => ?_⟩
  · rw [State.collide_of_resend hc hlow hcancel, hheld']
  · rw [State.collide_of_cancel hc hlow hcancel, State.closeEarly_of_request (c := c.collided) _ _ _ _ horigin,
      hclears horigin, hheld', hcounted']
    rfl
  · rw [State.collide_of_cancel hc hlow hcancel, State.closeEarly_of_poll (c := c.collided) _ _ _ _ horigin, hheld',
      hcounted']
  · rw [State.collide_of_limit hc hlimit, State.closeEarly_of_request (c := c.collided) _ _ _ _ horigin,
      hclears horigin, hraised', hcounted']
    rfl
  · rw [State.collide_of_limit hc hlimit, State.closeEarly_of_poll (c := c.collided) _ _ _ _ horigin, hraised',
      hcounted']

/-! ## The settle timer and the holdoff timer (R98, R99, R105) -/

/-- The end of a drain where no transaction is in flight (R142, R145). -/
theorem State.endDrain_of_drained {s : State} (hmode : s.mode = .draining) (hc : s.context = none) :
    s.endDrain = { s with
      mode := .stopped
      phase := .idle
      timer := LineTimer.off
      stallActive := false
      events := { s.events with lineStopped := true } } := by
  rw [State.endDrain, if_pos ⟨hmode, by rw [hc]; rfl⟩]
  rfl

/-- A drain goes on with a transaction in flight, and no other mode drains. -/
theorem State.endDrain_of_not_drained {s : State} (h : s.mode ≠ .draining ∨ s.context.isSome = true) :
    s.endDrain = s := by
  refine if_neg fun ⟨hmode, hc⟩ => ?_
  rcases h with h | h
  · exact h hmode
  · rw [Option.isNone_iff_eq_none.1 hc] at h
    cases h

/-- Settles O46: each timer by whether a transaction is still in flight. -/
theorem settleAndHoldoffExpiry : Obligations.SettleAndHoldoffExpiry := by
  intro s judged hheld hquiet hjudged
  have hsettle : exec .settleTimerExpiry s = .next s.settleEnd := exec_of_live rfl hheld
  have hholdoff : exec .holdoffExpiry s = .next s.holdoffEnd := exec_of_live rfl hheld
  rw [hsettle, hholdoff]
  refine ⟨fun hphase hc => ?_, fun hphase hc => ?_, fun hphase hc => ?_, fun hphase hc => ?_, fun t =>
    ⟨State.endDrain_of_drained, State.endDrain_of_not_drained⟩⟩
  · rw [State.settleEnd, if_pos ⟨hphase, hquiet⟩, ← hjudged, if_pos hc]
    rfl
  · rw [State.settleEnd, if_pos ⟨hphase, hquiet⟩, ← hjudged, if_neg (by rw [hc]; exact nofun)]
    rfl
  · rw [State.holdoffEnd, if_pos ⟨hphase, hquiet⟩, if_pos hc]
    rfl
  · rw [State.holdoffEnd, if_pos ⟨hphase, hquiet⟩, if_neg (by rw [hc]; exact nofun)]
    rfl

/-! ## The ticks (R71, R72, R151) -/

/-- A state of health that is polled (R70). -/
theorem StationState.polled_iff {x : StationState} : x.polled = true ↔ x = .unknown ∨ x = .online ∨ x = .suspect := by
  cases x <;> decide

/-- An entry at a 10 ms tick (R71). -/
theorem Station.pollTick_eq (e : Station) :
    e.pollTick =
      if (e.state = .unknown ∨ e.state = .online ∨ e.state = .suspect) ∧ 0 < e.pollPeriod ∧ 0 < e.pollCountdown
      then { e with pollCountdown := e.pollCountdown - 1 } else e := by
  simp only [Station.pollTick, Bool.and_eq_true, decide_eq_true_eq, StationState.polled_iff, and_assoc]

/-- An entry at a 100 ms tick (R72). -/
theorem Station.probeTick_eq (e : Station) :
    e.probeTick =
      if e.state = .offline ∧ 0 < e.probeCountdown then { e with probeCountdown := e.probeCountdown - 1 } else e := by
  simp only [Station.probeTick, Bool.and_eq_true, decide_eq_true_eq, beq_iff_eq]

/-- A station is due for a poll (R60). -/
theorem Station.pollDue_iff (e : Station) :
    e.pollDue = true ↔
      (e.state = .unknown ∨ e.state = .online ∨ e.state = .suspect) ∧ 0 < e.pollPeriod ∧ e.pollCountdown = 0 := by
  simp only [Station.pollDue, Bool.and_eq_true, decide_eq_true_eq, beq_iff_eq, StationState.polled_iff, and_assoc]

/-- A station is due for a probe (R60). -/
theorem Station.probeDue_iff (e : Station) : e.probeDue = true ↔ e.state = .offline ∧ e.probeCountdown = 0 := by
  simp only [Station.probeDue, Bool.and_eq_true, beq_iff_eq]

/-- The Poll Timer is frozen in STOPPED alone (R74). -/
theorem State.ite_pollTimerRuns {α : Type} (s : State) (a b : α) :
    (if s.pollTimerRuns then a else b) = if s.mode = .stopped then b else a := by
  unfold State.pollTimerRuns
  by_cases h : s.mode = .stopped
  · rw [if_pos h, h]
    rfl
  · rw [if_neg h, bne_iff_ne.2 h, if_pos rfl]

/-- A 10 ms tick, given and taken (R71, R151). -/
theorem State.tick10_of_given {s : State} (h : s.tick10Given = true) :
    s.tick10 = { s with
      tick10Given := false
      prescaler100 := if s.prescaler100 + 1 < 10 then s.prescaler100 + 1 else 0
      tick100Given := s.tick100Given || decide (10 ≤ s.prescaler100 + 1)
      stations := if s.mode = .stopped then s.stations
        else s.stations.map fun e =>
          if (e.state = .unknown ∨ e.state = .online ∨ e.state = .suspect) ∧ 0 < e.pollPeriod ∧ 0 < e.pollCountdown
          then { e with pollCountdown := e.pollCountdown - 1 } else e } := by
  rw [State.tick10, if_pos h, State.ite_pollTimerRuns, funext Station.pollTick_eq]
  rfl

/-- A 100 ms tick, given and taken (R72, R151). -/
theorem State.tick100_of_given {s : State} (h : s.tick100Given = true) :
    s.tick100 = { s with
      tick100Given := false
      stations := if s.mode = .stopped then s.stations
        else s.stations.map fun e =>
          if e.state = .offline ∧ 0 < e.probeCountdown then { e with probeCountdown := e.probeCountdown - 1 }
          else e } := by
  rw [State.tick100, if_pos h, State.ite_pollTimerRuns, funext Station.probeTick_eq]

/-- Every hold that the time counter has reached ends (R67). -/
theorem State.endHolds_of_reached {s : State} (h : ∃ r ∈ s.queue, r.holdUntil = some s.timeCounter) :
    s.endHolds = State.look { s with
      queue := s.queue.map fun r =>
        if r.holdUntil = some s.timeCounter then { r with holdUntil := none } else r } := by
  have hany : s.queue.any s.holdReached = true := by
    simpa [List.any_eq_true, State.holdReached] using h
  rw [State.endHolds, if_pos hany]
  simp only [State.holdReached, beq_iff_eq]

/-- Settles O54: each row by the tick that is given, the station that is due, and the hold that is reached. -/
theorem timebaseRows : Obligations.TimebaseRows := by
  intro s hheld
  have hrise (t : State) (ht : t.resetHeld = false) : exec .timeCounterTick t = .next t.tick := exec_of_live rfl ht
  have hten : exec .tenMsTick s = .next s.tick10 := exec_of_live rfl hheld
  have hhundred : exec .hundredMsTick s = .next s.tick100 := exec_of_live rfl hheld
  have hpoll (a : Nat) : exec (.pollCountdownExpiry a) s = .next (s.pollFallsDue a) := exec_of_live rfl hheld
  have hprobe (a : Nat) : exec (.probeCountdownExpiry a) s = .next (s.probeFallsDue a) := exec_of_live rfl hheld
  have hhold : exec .holdEnd s = .next s.endHolds := exec_of_live rfl hheld
  rw [hten, hhundred, hhold, hrise s hheld]
  refine ⟨fun h10 h100 => ?_, fun t h10 ht => ?_, fun t h10 h100 ht => ?_, fun h10 => ?_, fun h10 => ?_, fun h100 => ?_,
    fun h100 => ?_, fun a hstate hperiod hdue => ?_, fun a hstate hdue => ?_, fun hreached => ?_⟩
  · rw [State.tick, State.takeGivenTicks, State.tick10_of_not_given h10, State.tick100_of_not_given h100]
    rfl
  · obtain rfl : s.tick10 = t := by injection ht
    have htick : s.tick10.tick = s.tick := by
      rw [State.tick, State.takeGivenTicks, State.tick10_of_not_given s.tick10_tick10Given]
      rfl
    rw [hrise _ (by rw [State.tick10_of_given h10]; exact hheld), htick]
  · obtain rfl : s.tick100 = t := by injection ht
    have h10' : s.tick100.tick10Given = false := by rw [State.tick100_of_given h100]; exact h10
    have htick : s.tick100.tick = s.tick := by
      rw [State.tick, State.tick, State.takeGivenTicks, State.takeGivenTicks, State.tick10_of_not_given h10',
        State.tick10_of_not_given h10, State.tick100_of_not_given s.tick100_tick100Given]
    rw [hrise _ (by rw [State.tick100_of_given h100]; exact hheld), htick]
  · rw [State.tick10_of_not_given h10]
  · rw [State.tick10_of_given h10]
  · rw [State.tick100_of_not_given h100]
  · rw [State.tick100_of_given h100]
  · rw [hpoll, State.pollFallsDue, if_pos ((Station.pollDue_iff _).2 ⟨hstate, hperiod, hdue⟩)]
  · rw [hprobe, State.probeFallsDue, if_pos ((Station.probeDue_iff _).2 ⟨hstate, hdue⟩)]
  · rw [State.endHolds_of_reached hreached]

end Sys2Proof.Machine
end

section
/-! SUPPORT. The decision on a request to a station: the record that each answer and each failure ends it with, and the
return to the queue after BUSY. -/

namespace Sys2Proof.Machine

/-! ## What the decision reads (R18, R24) -/

/-- A station is served in a state of health other than OFFLINE and DISABLED (R20). -/
theorem StationState.served_iff {x : StationState} : x.served = true ↔ x ≠ .offline ∧ x ≠ .disabled := by
  cases x <;> decide

/-- A station is lost where a failure moves it to OFFLINE from a state of health that is served (R24). -/
theorem Station.lostBy_iff (before after : Station) :
    before.lostBy after = true ↔ before.state ≠ .offline ∧ before.state ≠ .disabled ∧ after.state = .offline := by
  rw [Station.lostBy, Bool.and_eq_true, beq_iff_eq, StationState.served_iff, and_assoc]

/-- The verdict of a request to a station is decided on the entry that the table has left (R99). -/
theorem State.takeVerdict_of_request {s : State} {c : Context} {v : Verdict} (hc : s.context = some c)
    (h0 : c.station ≠ 0) (ho : c.origin = .request) (hv : c.verdict = some v) :
    s.takeVerdict = (s.setStation c.station (s.entryAfter c v)).decideRequest c v
      ((s.station c.station).lostBy (s.entryAfter c v)) := by
  simp only [State.takeVerdict, hc, h0, hv, ho, if_false]

/-- A valid answer leaves the synced flag (R18). -/
theorem Context.clearsSync_of_valid {c : Context} {kind : AnswerKind} {n : Nat} {ack : Bool} {code : Option Byte}
    (hv : c.verdict = some (.valid kind n ack code)) : c.clearsSync true = false := by
  simp [Context.clearsSync, Context.hasValidAnswer, hv]

/-- A failed attempt clears the synced flag where a character of the call was sent (R18). -/
theorem Context.clearsSync_of_failure {c : Context} (h0 : c.station ≠ 0) (ho : c.origin = .request)
    (hfailed : c.hasValidAnswer = false) : c.clearsSync true = c.callBits.isSome := by
  rw [Context.clearsSync_of_request ho, hfailed, bne_iff_ne.2 h0, Bool.true_and, Bool.not_false, Bool.and_true]

/-! ## The return to the queue (R65) -/

/-- The record that waits out a hold (R65). -/
def State.returned (s : State) (c : Context) : Request :=
  { ticket := c.ticket, station := c.station, kind := c.kind, urgent := c.urgent, retryLimit := c.retryLimit,
    outBuffer := c.outBuffer, outLength := c.outLength, attemptsMade := c.attempts,
    holdUntil := some (s.timeCounter + BitVec.ofNat 16 s.limits.busyDelay) }

/-- Every other buffer keeps its ownership. -/
theorem State.owner_changeOwnerOpt_other {s : State} {buffer : Option Nat} {b : Nat} (old new : Ownership)
    (h : ∀ b' ∈ buffer, b' ≠ b) : (s.changeOwner? buffer old new).owner b = s.owner b := by
  cases buffer with
  | none => rfl
  | some b' => exact s.owner_changeOwner_other old new (h b' rfl).symm

/-- The return of a request to the head of its class, field by field (R65). -/
theorem State.busyReturn_eq {s : State} {c : Context} (h : UrgentFirst s.queue)
    (hout : ∀ b ∈ c.outBuffer, s.owner b = some .line) (hanswer : ∀ b ∈ c.answerBuffer, s.owner b = some .line)
    (hne : ∀ b ∈ c.outBuffer, ∀ b' ∈ c.answerBuffer, b ≠ b') :
    s.busyReturn c = { s with
      queue := if (s.returned c).urgent then s.returned c :: s.queue
        else urgentOf s.queue ++ s.returned c :: normalOf s.queue
      owners := c.answerBuffer.elim (c.outBuffer.elim s.owners (s.owners.set · .queued))
        ((c.outBuffer.elim s.owners (s.owners.set · .queued)).set · .free)
      freeList := s.freeList ++ c.answerBuffer.toList
      reserved := false
      context := none } := by
  have hfreed : ∀ b ∈ c.answerBuffer, (s.changeOwner? c.outBuffer .line .queued).owner b = some .line := fun b hb => by
    rw [State.owner_changeOwnerOpt_other _ _ fun b' hb' => hne b' hb' b hb, hanswer b hb]
  have hcarried : (s.changeOwner? c.outBuffer .line .queued).changeOwner? c.answerBuffer .line .free = { s with
      owners := c.answerBuffer.elim (c.outBuffer.elim s.owners (s.owners.set · .queued))
        ((c.outBuffer.elim s.owners (s.owners.set · .queued)).set · .free)
      freeList := s.freeList ++ c.answerBuffer.toList } := by
    rw [State.changeOwnerOpt_eq .free hfreed, State.changeOwnerOpt_eq .queued hout]
    rfl
  have hplace : placeAtHead s.queue (s.returned c) =
      if (s.returned c).urgent then s.returned c :: s.queue else urgentOf s.queue ++ s.returned c :: normalOf s.queue :=
    placeAtHead_eq h _
  rw [← hplace, State.busyReturn, hcarried]
  rfl

/-! ## The rows of R103 -/

/-- A valid answer ends a request with its record, and leaves the synced flag (R18, R103). -/
theorem State.endRequest_of_valid {c : Context} {kind : AnswerKind} {n : Nat} {ack : Bool} {code : Option Byte}
    (s : State) (r : ResultRecord) (hv : c.verdict = some (.valid kind n ack code)) :
    s.endRequest c r = s.close c (some r) false := by
  rw [State.endRequest, Context.clearsSync_of_valid hv]

/-- Attempts remain below the retry limit plus one (R65, R100). -/
theorem Context.attemptsRemain_iff (c : Context) : c.attemptsRemain = true ↔ c.attempts < c.retryLimit + 1 :=
  decide_eq_true_iff

/-- A failed attempt is decided by whether the station is lost, a cancel is pending, and attempts remain (R100). -/
theorem State.decideFailure_rows (s : State) {c : Context} {sent : Bool} (outcome : ResultOutcome) (lost : Bool)
    (hsent : c.clearsSync true = sent) :
    (lost = true →
      s.decideFailure c outcome lost = s.close c (some { c.record (if c.cancelPending then .cancelled else outcome) with
        stationLost := true }) sent) ∧
    (lost = false → c.cancelPending = true →
      s.decideFailure c outcome lost = s.close c (some (c.record .cancelled)) sent) ∧
    (lost = false → c.cancelPending = false → c.attempts < c.retryLimit + 1 →
      s.decideFailure c outcome lost = { s with context := some { c with verdict := none } }) ∧
    (lost = false → c.cancelPending = false → c.retryLimit + 1 ≤ c.attempts →
      s.decideFailure c outcome lost = s.close c (some (c.record outcome)) sent) := by
  refine ⟨?_, ?_, ?_, ?_⟩
  · rintro rfl
    rw [State.decideFailure, if_pos rfl, State.endRequest, hsent]
  · rintro rfl hcancel
    rw [State.decideFailure, if_neg Bool.false_ne_true, if_pos hcancel, State.endRequest, hsent]
  · rintro rfl hcancel hremain
    rw [State.decideFailure, if_neg Bool.false_ne_true, if_neg (Bool.not_eq_true _ ▸ hcancel),
      if_pos (c.attemptsRemain_iff.2 hremain)]
  · rintro rfl hcancel hspent
    rw [State.decideFailure, if_neg Bool.false_ne_true, if_neg (Bool.not_eq_true _ ▸ hcancel),
      if_neg (mt c.attemptsRemain_iff.1 (Nat.not_lt.2 hspent)), State.endRequest, hsent]

/-- Settles O47: a valid answer by its kind, a failure by its row. -/
theorem requestDecision : Obligations.RequestDecision := by
  intro s told c v lost sent hc horigin h0 hv htold hlost hsent
  have hlost' : (s.station c.station).lostBy (s.entryAfter c v) = lost :=
    Bool.eq_iff_iff.2 ((Station.lostBy_iff _ _).trans hlost.symm)
  have hdecide : s.takeVerdict = told.decideRequest c v lost := by
    rw [State.takeVerdict_of_request hc h0 horigin hv, hlost', htold]
  rw [hdecide]
  refine ⟨fun n ack code => ⟨?_, ?_, ?_, ?_⟩, ?_⟩
  · rintro rfl
    exact told.endRequest_of_valid _ hv
  · rintro rfl
    exact told.endRequest_of_valid _ hv
  · rintro rfl
    exact told.endRequest_of_valid _ hv
  · rintro rfl
    have hbusy : told.decideRequest c (.valid .busy n ack code) lost = told.decideBusy c := rfl
    rw [hbusy]
    have hframe := s.setStation_eq c.station (s.entryAfter c (.valid .busy n ack code))
    rw [← htold] at hframe
    have hqueue : told.queue = s.queue := by rw [hframe]
    refine ⟨fun hcancel => ?_, fun hcancel hspent => ?_,
      fun hcancel hremain hspace hqueueOk hout hanswer hne r hr => ?_⟩
    · rw [State.decideBusy, if_pos hcancel, told.endRequest_of_valid _ hv]
    · have hends : ¬ (c.attemptsRemain = true ∧ told.queue.length < Config.queueCapacity) := fun ⟨hremain, hspace⟩ => by
        have hattempts := c.attemptsRemain_iff.1 hremain
        have hlength : told.queue.length < 16 := hspace
        rw [hqueue] at hlength
        omega
      rw [State.decideBusy, hcancel, if_neg Bool.false_ne_true, if_neg hends, told.endRequest_of_valid _ hv]
    · have hreturns : c.attemptsRemain = true ∧ told.queue.length < Config.queueCapacity :=
        ⟨c.attemptsRemain_iff.2 hremain, hqueue ▸ hspace⟩
      rw [State.decideBusy, hcancel, if_neg Bool.false_ne_true, if_pos hreturns]
      subst hr
      rw [hframe]
      exact State.busyReturn_eq (s := { s with stations := told.stations }) hqueueOk.2 hout hanswer hne
  · rintro outcome (⟨rfl, rfl⟩ | ⟨⟨d, rfl⟩, rfl⟩)
    · have hfailed : c.hasValidAnswer = false := by rw [Context.hasValidAnswer, hv]
      exact told.decideFailure_rows .noAnswer lost (hsent ▸ Context.clearsSync_of_failure h0 horigin hfailed)
    · have hfailed : c.hasValidAnswer = false := by rw [Context.hasValidAnswer, hv]
      exact told.decideFailure_rows .badAnswer lost (hsent ▸ Context.clearsSync_of_failure h0 horigin hfailed)

end Sys2Proof.Machine
end

section
/-! SUPPORT. What the Dispatcher does with its choice: a request or a poll goes onto the line, or a request is completed
at dispatch. -/

namespace Sys2Proof.Machine

/-! ## The events of a dispatch (R117, R133, R140) -/

/-- A flag that is raised where a condition holds. -/
theorem Events.raise_poolEmpty_if (e : Events) (b : Bool) :
    (if b then e.raise .poolEmpty else e) = { e with poolEmpty := e.poolEmpty || b } := by
  cases b with
  | true => rw [Bool.or_true]; rfl
  | false => rw [Bool.or_false]; rfl

/-- The post of a record, field by field: RESULTS_HIGH is raised where the count reaches the watermark (R132, R133). -/
theorem State.post_eq (s : State) (r : ResultRecord) :
    s.post r = { s with
      results := s.results ++ [{ r with stamp := s.timeCounter }]
      events := { s.events with
        resultsHigh := s.events.resultsHigh || decide (s.results.length + 1 = s.limits.watermark) } } := by
  have hevents : (if s.results.length < s.limits.watermark ∧ s.results.length + 1 = s.limits.watermark then
        s.events.raise .resultsHigh else s.events) =
      { s.events with
        resultsHigh := s.events.resultsHigh || decide (s.results.length + 1 = s.limits.watermark) } := by
    by_cases h : s.results.length + 1 = s.limits.watermark
    · rw [if_pos ⟨by omega, h⟩, decide_eq_true h, Bool.or_true]
      rfl
    · rw [if_neg fun hreaches => h hreaches.2, decide_eq_false h, Bool.or_false]
  rw [State.post, hevents]

/-! ## The three steps (R62, R63, R64) -/

/-- The context of a request as it is dispatched (R62). -/
def Request.contextWith (r : Request) (answer : Option Nat) : Context :=
  { origin := .request, ticket := r.ticket, station := r.station, kind := r.kind, urgent := r.urgent,
    retryLimit := r.retryLimit, attempts := r.attemptsMade, collisions := 0, outBuffer := r.outBuffer,
    outLength := r.outLength, answerBuffer := answer, cancelPending := false, lastDetail := none,
    callBits := none, verdict := none }

/-- A request goes onto the line from the state that holds its buffers (R62). -/
theorem State.dispatchRequest_eq (s : State) (r : Request) :
    s.dispatchRequest r = State.enterGap { (s.dispatchTaken r).changeOwner? r.outBuffer .queued .line with
      context := some (r.contextWith (if r.needsBuffer then s.freeList.head? else none))
      consecutive := if s.consecutive < 15 then s.consecutive + 1 else s.consecutive
      stallReported := false } := rfl

/-- A READ or EXCHANGE needs an answer buffer (R59). -/
theorem Request.needsBuffer_iff (r : Request) : r.needsBuffer = true ↔ r.kind ≠ .write := by
  unfold Request.needsBuffer
  cases r.kind with
  | write => exact iff_of_false Bool.false_ne_true fun h => h rfl
  | read | exchange | poll => exact iff_of_true rfl nofun

/-- A request that needs no answer buffer takes none (R62). -/
theorem State.dispatchRequest_of_write {s : State} {r : Request} (hr : r ∈ s.queue)
    (hout : ∀ b ∈ r.outBuffer, s.owner b = some .queued) (hkind : r.kind = .write) :
    s.dispatchRequest r = State.enterGap { s with
      queue := s.queue.eraseP (·.ticket == r.ticket)
      events := { s.events with requestSpace := s.events.requestSpace || s.queue.length == 16 }
      reserved := true
      owners := r.outBuffer.elim s.owners (s.owners.set · .line)
      context := some (r.contextWith none)
      consecutive := if s.consecutive < 15 then s.consecutive + 1 else s.consecutive
      stallReported := false } := by
  have hneeds : ¬ r.needsBuffer = true := fun h => r.needsBuffer_iff.1 h hkind
  have htaken : s.dispatchTaken r = { s.removeRequest r.ticket with reserved := true } := if_neg hneeds
  have hout' : ∀ b ∈ r.outBuffer, (s.dispatchTaken r).owner b = some .queued := by rwa [htaken]
  rw [State.dispatchRequest_eq, State.changeOwnerOpt_eq .line hout', htaken, State.removeRequest_eq hr, if_neg hneeds]
  rfl

/-- A request that needs an answer buffer takes the head of the free list (R62, R115). -/
theorem State.dispatchRequest_of_answered {s : State} {r : Request} {b : Nat} {rest : List Nat} (hr : r ∈ s.queue)
    (hout : ∀ b ∈ r.outBuffer, s.owner b = some .queued) (hkind : r.kind ≠ .write) (hfree : s.freeList = b :: rest)
    (hb : s.owner b = some .free) :
    s.dispatchRequest r = State.enterGap { s with
      queue := s.queue.eraseP (·.ticket == r.ticket)
      events := { s.events with
        requestSpace := s.events.requestSpace || s.queue.length == 16
        poolEmpty := s.events.poolEmpty || rest.isEmpty }
      reserved := true
      freeList := rest
      owners := r.outBuffer.elim (s.owners.set b .line) ((s.owners.set b .line).set · .line)
      memory := s.memory.clear (32 * b) 32
      context := some (r.contextWith (some b))
      consecutive := if s.consecutive < 15 then s.consecutive + 1 else s.consecutive
      stallReported := false } := by
  have hneeds : r.needsBuffer = true := r.needsBuffer_iff.2 hkind
  have htaken : s.dispatchTaken r = { s with
      queue := s.queue.eraseP (·.ticket == r.ticket)
      events := { s.events with
        requestSpace := s.events.requestSpace || s.queue.length == 16
        poolEmpty := s.events.poolEmpty || rest.isEmpty }
      reserved := true
      freeList := rest
      owners := s.owners.set b .line
      memory := s.memory.clear (32 * b) 32 } := by
    rw [State.dispatchTaken, if_pos hneeds,
      State.takeHead_cons (s := { s.removeRequest r.ticket with reserved := true }) .line hfree,
      Events.raise_poolEmpty_if, State.removeRequest_eq hr]
    rfl
  have hout' : ∀ b' ∈ r.outBuffer, (s.dispatchTaken r).owner b' = some .queued := fun b' hb' => by
    have hne : b ≠ b' := by
      rintro rfl
      rw [hout b hb'] at hb
      cases hb
    rw [htaken, ← hout b' hb']
    exact List.getElem?_set_ne hne
  rw [State.dispatchRequest_eq, State.changeOwnerOpt_eq .line hout', htaken, if_pos hneeds, hfree]
  rfl

/-- A completion at dispatch, field by field (R64, R133). -/
theorem State.completeAtDispatch_eq {s : State} {r : Request} (hr : r ∈ s.queue)
    (hout : ∀ b ∈ r.outBuffer, s.owner b = some .queued) :
    s.completeAtDispatch r = { s with
      queue := s.queue.eraseP (·.ticket == r.ticket)
      events := { s.events with
        requestSpace := s.events.requestSpace || s.queue.length == 16
        resultsHigh := s.events.resultsHigh || decide (s.results.length + 1 = s.limits.watermark) }
      owners := r.outBuffer.elim s.owners (s.owners.set · .free)
      freeList := s.freeList ++ r.outBuffer.toList
      results := s.results ++ [{ r.completionRecord (s.station r.station).state with stamp := s.timeCounter }]
      stallReported := false } := by
  rw [State.completeAtDispatch, State.changeOwnerOpt_eq (s := s.removeRequest r.ticket) .free hout, if_pos rfl,
    State.removeRequest_eq hr, State.post_eq]

/-- A poll or probe goes onto the line, field by field (R63). -/
theorem State.dispatchPoll_eq {s : State} {b : Nat} {rest : List Nat} (a : Nat) (hfree : s.freeList = b :: rest) :
    s.dispatchPoll a = State.enterGap { s with
      events := { s.events with poolEmpty := s.events.poolEmpty || rest.isEmpty }
      reserved := true
      freeList := rest
      owners := s.owners.set b .line
      memory := s.memory.clear (32 * b) 32
      stations := (s.setStation a ((s.station a).dispatched s.limits.probeInterval)).stations
      context := some
        { origin := (s.station a).pollOrigin, ticket := 0, station := a, kind := .poll, urgent := false,
          retryLimit := 0, attempts := 0, collisions := 0, outBuffer := none, outLength := 0, answerBuffer := some b,
          cancelPending := false, lastDetail := none, callBits := none, verdict := none }
      pollPointer := a
      consecutive := 0
      stallReported := false } := by
  rw [State.dispatchPoll, State.takeHead_cons (s := { s with reserved := true }) .line hfree,
    Events.raise_poolEmpty_if, State.setStation_eq, hfree]
  cases a with
  | zero => rfl
  | succ n => rfl

/-- Settles O53: each step by its fields. -/
theorem dispatchSteps : Obligations.DispatchSteps := by
  intro s events left
  refine ⟨fun r hr _ hleft hevents hout => ⟨fun hkind => ?_, fun b rest hkind hfree hb => ?_, ?_⟩,
    fun a b rest e he hfree => ?_⟩
  · rw [State.dispatchRequest_of_write hr hout hkind, hleft, hevents]
    rfl
  · rw [State.dispatchRequest_of_answered hr hout hkind hfree hb, hleft, hevents]
    rfl
  · rw [State.completeAtDispatch_eq hr hout, hleft, hevents]
    rfl
  · rw [State.dispatchPoll_eq a hfree, he]
    rfl

end Sys2Proof.Machine
end

section
/-! SUPPORT. What a look of the Dispatcher finds: the eligible request, the due station, and its choice between the
two. -/

namespace Sys2Proof.Machine

/-! ## The eligible request (R59) -/

/-- A request whose station is OFFLINE or DISABLED is completed at dispatch (R64). -/
theorem State.completesAtDispatch_iff (s : State) (r : Request) :
    s.completesAtDispatch r = true ↔
      r.station ≠ 0 ∧ ((s.station r.station).state = .offline ∨ (s.station r.station).state = .disabled) := by
  rw [State.completesAtDispatch, Bool.and_eq_true, bne_iff_ne, Bool.not_eq_true', ← Bool.not_eq_true,
    StationState.served_iff, not_and_or, not_not, not_not]

/-- Items 1 and 2 of eligibility, with the exemption (R59). -/
theorem State.requestReady_iff (s : State) (r : Request) :
    s.requestReady r = true ↔
      r.holdUntil = none ∧
      (r.kind = .write ∨ s.freeList ≠ [] ∨
        (r.station ≠ 0 ∧ ((s.station r.station).state = .offline ∨ (s.station r.station).state = .disabled))) := by
  have hneeds : (!r.needsBuffer) = true ↔ r.kind = .write := by
    rw [Bool.not_eq_true', ← Bool.not_eq_true, r.needsBuffer_iff, not_not]
  have hfree : (!s.freeList.isEmpty) = true ↔ s.freeList ≠ [] := by
    rw [Bool.not_eq_true', ← Bool.not_eq_true, List.isEmpty_iff]
  rw [State.requestReady, Bool.and_eq_true, Bool.or_eq_true, Bool.or_eq_true, Option.isNone_iff_eq_none, hneeds, hfree,
    s.completesAtDispatch_iff, or_assoc]

/-- `r` stands at the first place of the queue for which `eligible` holds. -/
def FirstInQueue (queue : List Request) (eligible : Nat → Prop) (r : Request) : Prop :=
  ∃ i : Nat, queue[i]? = some r ∧ eligible i ∧ ∀ j < i, ¬ eligible j

/-- The first place is one place. -/
theorem FirstInQueue.unique {queue : List Request} {eligible : Nat → Prop} {r r' : Request}
    (h : FirstInQueue queue eligible r) (h' : FirstInQueue queue eligible r') : r = r' := by
  obtain ⟨i, hi, hat, hbefore⟩ := h
  obtain ⟨i', hi', hat', hbefore'⟩ := h'
  obtain rfl : i = i' :=
    Nat.le_antisymm (Nat.le_of_not_lt fun hlt => hbefore i' hlt hat') (Nat.le_of_not_lt fun hlt => hbefore' i hlt hat)
  exact Option.some.inj (hi.symm.trans hi')

/-- The rule of R59 for the places of a queue: ready, with no ineligible record of the same station ahead. -/
def EligibleIn (queue : List Request) (ready : Request → Prop) (eligible : Nat → Prop) : Prop :=
  ∀ i : Nat, eligible i ↔
    ∃ r : Request, queue[i]? = some r ∧ ready r ∧
      ∀ (j : Nat) (q : Request), j < i → queue[j]? = some q → q.station = r.station → eligible j

/-- Behind records that are all ineligible, a record is eligible where it is ready and its station is none of theirs. -/
theorem EligibleIn.at_front {queue ahead rest : List Request} {ready : Request → Prop} {eligible : Nat → Prop}
    {r : Request} (h : EligibleIn queue ready eligible) (hqueue : queue = ahead ++ r :: rest)
    (hnone : ∀ j < ahead.length, ¬ eligible j) :
    eligible ahead.length ↔ ready r ∧ r.station ∉ ahead.map (·.station) := by
  have hplace (j : Nat) (hj : j < ahead.length) : queue[j]? = ahead[j]? := by
    rw [hqueue, List.getElem?_append_left hj]
  have hat : queue[ahead.length]? = some r := by simp [hqueue]
  rw [h ahead.length]
  constructor
  · rintro ⟨r', hr', hready, hahead⟩
    obtain rfl : r = r' := Option.some.inj (hat.symm.trans hr')
    refine ⟨hready, fun hmem => ?_⟩
    obtain ⟨q, hq, hstation⟩ := List.mem_map.1 hmem
    obtain ⟨j, hj, hget⟩ := List.getElem_of_mem hq
    exact hnone j hj (hahead j q hj (by rw [hplace j hj, List.getElem?_eq_some_iff]; exact ⟨hj, hget⟩) hstation)
  · rintro ⟨hready, hclear⟩
    refine ⟨r, hat, hready, fun j q hj hq hstation => absurd (List.mem_map.2 ⟨q, ?_, hstation⟩) hclear⟩
    rw [hplace j hj] at hq
    exact List.mem_of_getElem? hq

/-- The model's search finds the first eligible place, or there is none: `blocked` are the stations of the records that
it has passed. -/
theorem State.firstEligible_finds {s : State} {queue : List Request} {eligible : Nat → Prop}
    (h : EligibleIn queue (fun r => s.requestReady r = true) eligible) {ahead rest : List Request} {blocked : List Nat}
    (hqueue : queue = ahead ++ rest) (hblocked : ∀ a : Nat, a ∈ blocked ↔ a ∈ ahead.map (·.station))
    (hnone : ∀ j < ahead.length, ¬ eligible j) :
    match s.firstEligible rest blocked with
    | some r => FirstInQueue queue eligible r
    | none => ∀ i : Nat, ¬ eligible i := by
  induction rest generalizing ahead blocked with
  | nil =>
    intro i hi
    obtain ⟨r, hr, -⟩ := (h i).1 hi
    obtain ⟨hlt, -⟩ := List.getElem?_eq_some_iff.1 hr
    exact hnone i (by simpa [hqueue] using hlt) hi
  | cons r rest ih =>
    have hfront := h.at_front hqueue hnone
    rw [← hblocked] at hfront
    have htest : (s.requestReady r && !blocked.contains r.station) = true ↔ eligible ahead.length := by
      rw [hfront, Bool.and_eq_true, Bool.not_eq_true', ← Bool.not_eq_true, List.contains_iff_mem]
    rw [State.firstEligible]
    by_cases heligible : eligible ahead.length
    · rw [if_pos (htest.2 heligible)]
      exact ⟨ahead.length, by simp [hqueue], heligible, hnone⟩
    · rw [if_neg (mt htest.1 heligible)]
      refine ih (ahead := ahead ++ [r]) (by rw [hqueue, List.append_assoc]; rfl) (fun a => ?_) fun j hj => ?_
      · rw [List.mem_cons, hblocked, List.map_append, List.mem_append, or_comm]
        exact or_congr_right List.mem_singleton.symm
      · rw [List.length_append, List.length_singleton, Nat.lt_succ_iff_lt_or_eq] at hj
        rcases hj with hj | rfl
        · exact hnone j hj
        · exact heligible

/-- Settles O50: the search of the whole queue finds the one first eligible place. -/
theorem eligibleRequestRule : Obligations.EligibleRequestRule := by
  intro s ready eligible hready heligible
  have hrule : EligibleIn s.queue (fun r => s.requestReady r = true) eligible := fun i => by
    simp only [heligible i, hready, s.requestReady_iff]
  have hfinds := State.firstEligible_finds (ahead := []) (blocked := []) hrule rfl (fun _ => Iff.rfl) nofun
  rw [← State.eligibleRequest] at hfinds
  cases hfound : s.eligibleRequest with
  | some r =>
    rw [hfound] at hfinds
    refine ⟨fun r' => ⟨?_, fun h' => congrArg some (hfinds.unique h')⟩, iff_of_false nofun fun hnone => ?_⟩
    · rintro ⟨⟩
      exact hfinds
    · obtain ⟨i, -, hi, -⟩ := hfinds
      exact hnone i hi
  | none =>
    rw [hfound] at hfinds
    exact ⟨fun r => iff_of_false nofun fun ⟨i, _, hi, _⟩ => hfinds i hi, iff_of_true rfl hfinds⟩

/-! ## The due station (R60, R70) -/

/-- The address at a place of the round-robin order. -/
def robinAddress (pointer i : Nat) : Nat :=
  (pointer + i) % 31 + 1

/-- The due station is the one at the first place of the round-robin order that holds a station that is due. -/
theorem State.dueStation_eq_some {s : State} {a : Nat} :
    s.dueStation = some a ↔
      ∃ i < 31, s.stationDue (robinAddress s.pollPointer i) = true ∧ robinAddress s.pollPointer i = a ∧
        ∀ j < i, s.stationDue (robinAddress s.pollPointer j) = false := by
  have hdue : s.dueStation =
      ((List.range 31).find? (s.stationDue ∘ robinAddress s.pollPointer)).map (robinAddress s.pollPointer) :=
    List.find?_map ..
  rw [hdue, Option.map_eq_some_iff]
  simp only [List.find?_range_eq_some, List.mem_range, Function.comp_apply, Bool.not_eq_true']
  exact exists_congr fun i => by tauto

/-- No station is due. -/
theorem State.dueStation_eq_none {s : State} :
    s.dueStation = none ↔ ∀ i < 31, s.stationDue (robinAddress s.pollPointer i) = false := by
  simp [State.dueStation, roundRobin, robinAddress]

/-- A station is due for a poll or for a probe (R60). -/
theorem State.stationDue_iff (s : State) (a : Nat) :
    s.stationDue a = true ↔
      (((s.station a).state = .unknown ∨ (s.station a).state = .online ∨ (s.station a).state = .suspect) ∧
        0 < (s.station a).pollPeriod ∧ (s.station a).pollCountdown = 0) ∨
      ((s.station a).state = .offline ∧ (s.station a).probeCountdown = 0) := by
  rw [State.stationDue, Bool.or_eq_true, Station.pollDue_iff, Station.probeDue_iff]

/-- Settles O51: the place of an address is its index in the round-robin order. -/
theorem dueStationRule : Obligations.DueStationRule := by
  intro s candidate place hlow hhigh hcandidate hplace
  have hcandidate' (a : Nat) : candidate a ↔ (1 ≤ a ∧ a ≤ 31) ∧ s.stationDue a = true := by
    rw [hcandidate, s.stationDue_iff, and_assoc]
  have haddress (i : Nat) : 1 ≤ robinAddress s.pollPointer i ∧ robinAddress s.pollPointer i ≤ 31 := by
    unfold robinAddress
    omega
  have hplace_address (i : Nat) (hi : i < 31) : place (robinAddress s.pollPointer i) = i := by
    rw [hplace]
    unfold robinAddress
    omega
  have haddress_place (a : Nat) (ha : 1 ≤ a ∧ a ≤ 31) : robinAddress s.pollPointer (place a) = a := by
    rw [hplace]
    unfold robinAddress
    omega
  have hplace_lt (a : Nat) : place a < 31 := hplace a ▸ Nat.mod_lt _ (by decide)
  constructor
  · intro a
    rw [State.dueStation_eq_some, hcandidate']
    constructor
    · rintro ⟨i, hi, hdue, rfl, hfirst⟩
      refine ⟨⟨haddress i, hdue⟩, fun b hb => ?_⟩
      obtain ⟨hrange, hb⟩ := (hcandidate' b).1 hb
      rw [hplace_address i hi]
      refine Nat.le_of_not_lt fun hlt => ?_
      have hnot := hfirst (place b) hlt
      rw [haddress_place b hrange, hb] at hnot
      cases hnot
    · rintro ⟨⟨hrange, hdue⟩, hfirst⟩
      refine ⟨place a, hplace_lt a, by rwa [haddress_place a hrange], haddress_place a hrange, fun j hj => ?_⟩
      rw [← Bool.not_eq_true]
      intro hdue_j
      have hle := hfirst _ ((hcandidate' _).2 ⟨haddress j, hdue_j⟩)
      rw [hplace_address j (hj.trans (hplace_lt a))] at hle
      exact Nat.not_lt.2 hle hj
  · rw [State.dueStation_eq_none]
    constructor
    · intro hnone a ha
      obtain ⟨hrange, hdue⟩ := (hcandidate' a).1 ha
      have hnot := hnone (place a) (hplace_lt a)
      rw [haddress_place a hrange, hdue] at hnot
      cases hnot
    · intro hnone i _
      rw [← Bool.not_eq_true]
      exact fun hdue => hnone _ ((hcandidate' _).2 ⟨haddress i, hdue⟩)

end Sys2Proof.Machine
end

section
/-! SUPPORT. The look of the Dispatcher: the stall, the choice, and the look that goes on after a completion. -/

namespace Sys2Proof.Machine

/-! ## The choice (R60, R61) -/

/-- A poll or probe has a station and a buffer (R60). -/
theorem State.eligibleDue_of_due {s : State} {a : Nat} (hdue : s.dueStation = some a) (hfree : s.freeList ≠ []) :
    s.eligibleDue = some a := by
  rw [State.eligibleDue, if_neg (mt List.isEmpty_iff.1 hfree), hdue]

/-- No poll or probe goes without a station or without a buffer (R60). -/
theorem State.eligibleDue_of_none {s : State} (h : s.dueStation = none ∨ s.freeList = []) : s.eligibleDue = none := by
  unfold State.eligibleDue
  split
  · rfl
  · exact h.resolve_right (mt List.isEmpty_iff.2 ‹_›)

/-- A poll or probe goes when the poll share is reached or no request is eligible (R61). -/
theorem State.choose_of_poll {s : State} {a : Nat} (hdue : s.eligibleDue = some a)
    (h : s.limits.pollShare ≤ s.consecutive ∨ s.eligibleRequest = none) : s.choose = .poll a := by
  unfold State.choose
  by_cases hshare : s.limits.pollShare ≤ s.consecutive
  · rw [if_pos hshare, hdue]
  · rw [if_neg hshare, h.resolve_left hshare, hdue]

/-- The eligible request goes below the poll share, or with no poll or probe to go (R61). -/
theorem State.choose_of_request {s : State} {r : Request} (hr : s.eligibleRequest = some r)
    (h : s.consecutive < s.limits.pollShare ∨ s.eligibleDue = none) : s.choose = .request r := by
  unfold State.choose
  by_cases hshare : s.limits.pollShare ≤ s.consecutive
  · rw [if_pos hshare, h.resolve_left (Nat.not_lt.2 hshare), hr]
  · rw [if_neg hshare, hr]

/-- Nothing goes with no request eligible and no poll or probe to go (R61). -/
theorem State.choose_of_nothing {s : State} (hr : s.eligibleRequest = none) (hdue : s.eligibleDue = none) :
    s.choose = .nothing := by
  unfold State.choose
  rw [hr, hdue, ite_self]

/-! ## What the stall flag leaves -/

/-- The eligible record of a queue depends on readiness alone. -/
theorem State.firstEligible_congr {s t : State} (h : ∀ r, t.requestReady r = s.requestReady r) (queue : List Request)
    (blocked : List Nat) : t.firstEligible queue blocked = s.firstEligible queue blocked := by
  induction queue generalizing blocked with
  | nil => rfl
  | cons r rest ih => simp only [State.firstEligible, h, ih]

/-- The eligible request does not see the stall flag. -/
theorem State.eligibleRequest_stallActive (s : State) (b : Bool) :
    ({ s with stallActive := b } : State).eligibleRequest = s.eligibleRequest :=
  State.firstEligible_congr (s := s) (t := { s with stallActive := b }) (fun _ => rfl) _ _

/-! ## The look (R57, R58, R61, R64) -/

/-- The conditions of a look (R57). -/
theorem State.canLook_iff (s : State) :
    s.canLook = true ↔ s.mode = .running ∧ s.phase = .idle ∧ s.context = none := by
  rw [State.canLook, Bool.and_eq_true, Bool.and_eq_true, beq_iff_eq, beq_iff_eq, Option.isNone_iff_eq_none, and_assoc]

/-- A look with no slot free (R58). -/
theorem State.look_of_full {s : State} (hcan : s.canLook = true) (hfull : 24 ≤ s.results.length) :
    s.look = s.stalledLook := by
  have hcapacity : Config.resultCapacity ≤ s.results.length := hfull
  rw [State.look, if_pos hcan, State.lookWith, if_pos hcapacity]

/-- What a look with a slot free makes of its choice; after a completion it goes on with the fuel that is left (R61,
R64). -/
def State.carryOut (s : State) (fuel : Nat) : Choice → State
  | .poll a => s.dispatchPoll a
  | .request r => if s.completesAtDispatch r then (s.completeAtDispatch r).lookWith fuel else s.dispatchRequest r
  | .nothing => s

/-- A look with a slot free carries out its choice (R61). -/
theorem State.look_of_slot {s free : State} (hfree : free = { s with stallActive := false }) (hcan : s.canLook = true)
    (hslot : s.results.length < 24) : s.look = free.carryOut s.queue.length free.choose := by
  have hcapacity : ¬ Config.resultCapacity ≤ s.results.length := Nat.not_le.2 hslot
  subst hfree
  rw [State.look, if_pos hcan, State.lookWith, if_neg hcapacity]
  rfl

/-- Work is waiting where a record is not holding or a station is due (R58). -/
theorem State.workWaiting_iff (s : State) :
    s.workWaiting = true ↔ (∃ r ∈ s.queue, r.holdUntil = none) ∨ s.dueStation.isSome = true := by
  simp only [State.workWaiting, Bool.or_eq_true, List.any_eq_true, Option.isNone_iff_eq_none]

/-- A stall is reported where it was not (R58). -/
theorem State.stalledLook_of_waiting {s : State} (h : s.workWaiting = true) :
    s.stalledLook = { s with
      stallActive := true
      stallReported := true
      events := { s.events with stall := s.events.stall || !s.stallReported } } := by
  have hevents : (if s.stallReported then s.events else s.events.raise .stall) =
      { s.events with stall := s.events.stall || !s.stallReported } := by
    cases s.stallReported with
    | true => rw [if_pos rfl, Bool.not_true, Bool.or_false]
    | false => rw [if_neg Bool.false_ne_true, Bool.not_false, Bool.or_true]; rfl
  rw [State.stalledLook, if_pos h, hevents]

/-- A completion at dispatch leaves the conditions of a look, and its record has left the queue: the look that goes on
has the fuel of a look of its own (R64). -/
theorem State.lookWith_completed {s : State} {r : Request} (hcan : s.canLook = true) (hr : r ∈ s.queue) :
    (s.completeAtDispatch r).lookWith s.queue.length = (s.completeAtDispatch r).look := by
  have hcan' : (s.completeAtDispatch r).canLook = true := by
    simpa [State.canLook, State.completeAtDispatch] using hcan
  have hlength : (s.completeAtDispatch r).queue.length + 1 = s.queue.length := by
    have herased : (s.queue.eraseP (·.ticket == r.ticket)).length = s.queue.length - 1 :=
      List.length_eraseP_of_mem hr (beq_self_eq_true _)
    rw [State.completeAtDispatch_queue, State.removeRequest_queue, herased]
    exact Nat.sub_add_cancel (List.length_pos_of_mem hr)
  rw [State.look, if_pos hcan', hlength]

/-- Settles O52: with no slot free by the work that waits, otherwise by the choice. -/
theorem lookOutcomes : Obligations.LookOutcomes := by
  intro s free hfree
  refine ⟨fun hnot => ?_, fun hmode hphase hcontext => ?_⟩
  · exact State.look_of_not_canLook (Bool.not_eq_true _ ▸ mt s.canLook_iff.1 hnot)
  have hcan : s.canLook = true := s.canLook_iff.2 ⟨hmode, hphase, hcontext⟩
  have hrequest : free.eligibleRequest = s.eligibleRequest := by rw [hfree, State.eligibleRequest_stallActive]
  refine ⟨fun hfull hwaiting => ?_, fun hfull hholding hdue => ?_, fun hslot => ⟨?_, ?_, ?_⟩⟩
  · rw [State.look_of_full hcan hfull, State.stalledLook_of_waiting (s.workWaiting_iff.2 hwaiting)]
  · have hidle : ¬ s.workWaiting = true := fun hwaiting => by
      rcases s.workWaiting_iff.1 hwaiting with ⟨r, hr, hnone⟩ | hsome
      · exact hholding r hr hnone
      · rw [hdue] at hsome
        cases hsome
    rw [State.look_of_full hcan hfull, State.stalledLook, if_neg hidle, hfree]
  · intro a hdue hbuffer hshare
    have hdue' : free.eligibleDue = some a := by
      subst hfree
      exact State.eligibleDue_of_due (s := { s with stallActive := false }) hdue hbuffer
    have hchoice : free.choose = .poll a := State.choose_of_poll hdue' (by rw [hrequest, hfree]; exact hshare)
    rw [State.look_of_slot hfree hcan hslot, hchoice, State.carryOut]
  · intro r hr hshare
    have hdue' : s.consecutive < s.limits.pollShare ∨ free.eligibleDue = none := hshare.imp_right fun h => by
      subst hfree
      exact State.eligibleDue_of_none (s := { s with stallActive := false }) h
    have hchoice : free.choose = .request r :=
      State.choose_of_request (hrequest.trans hr) (by subst hfree; exact hdue')
    have hcompletes : free.completesAtDispatch r = s.completesAtDispatch r := by rw [hfree]; rfl
    rw [State.look_of_slot hfree hcan hslot, hchoice, State.carryOut, hcompletes]
    refine ⟨fun hserved => if_neg fun h => ?_, fun h0 hlost => ?_⟩
    · obtain ⟨h0, hlost⟩ := (s.completesAtDispatch_iff r).1 h
      tauto
    · rw [if_pos ((s.completesAtDispatch_iff r).2 ⟨h0, hlost⟩)]
      subst hfree
      exact State.lookWith_completed (s := { s with stallActive := false }) hcan (State.firstEligible_spec hr).1
  · intro hr hdue
    have hdue' : free.eligibleDue = none := by
      subst hfree
      exact State.eligibleDue_of_none (s := { s with stallActive := false }) hdue
    rw [State.look_of_slot hfree hcan hslot, State.choose_of_nothing (hrequest.trans hr) hdue',
      State.carryOut]

end Sys2Proof.Machine
end

section
/-! SUPPORT. What a row of the table can do on the station line, said once: besides what the line does not see, a row
makes one of the acts below. -/

namespace Sys2Proof.Machine

/-! ## The line's own fields -/

/-- What the Line Controller holds of a state: DE, the sender, the mode, the phase, the transaction in flight, the
receiver and the line configuration. -/
def State.line (s : State) : Bool × Transmit × LineMode × LinePhase × Option Context × Receiver × LineConfig :=
  (s.de, s.tx, s.mode, s.phase, s.context, s.receiver, s.lineConfig)

/-- States with equal line fields agree on each of them. -/
theorem State.line_fields {s t : State} (h : t.line = s.line) :
    t.de = s.de ∧ t.tx = s.tx ∧ t.mode = s.mode ∧ t.phase = s.phase ∧ t.context = s.context ∧
      t.receiver = s.receiver ∧ t.lineConfig = s.lineConfig := by
  simpa only [State.line, Prod.mk.injEq] using h

@[simp] theorem State.takeHead_line (s : State) (new : Ownership) : (s.takeHead new).line = s.line := by
  rw [State.takeHead_frame]
  rfl

@[simp] theorem State.changeOwner_line (s : State) (b : Nat) (old new : Ownership) :
    (s.changeOwner b old new).line = s.line := by
  rw [State.changeOwner_frame]
  rfl

@[simp] theorem State.changeOwnerOpt_line (s : State) (buffer : Option Nat) (old new : Ownership) :
    (s.changeOwner? buffer old new).line = s.line := by
  rw [State.changeOwnerOpt_frame]
  rfl

@[simp] theorem State.setStation_line (s : State) (a : Nat) (e : Station) : (s.setStation a e).line = s.line := by
  rw [State.setStation_eq]
  rfl

@[simp] theorem State.tick10_line (s : State) : s.tick10.line = s.line := by
  rw [State.tick10_frame]
  rfl

@[simp] theorem State.tick100_line (s : State) : s.tick100.line = s.line := by
  rw [State.tick100_frame]
  rfl

/-- A change of the host window is not seen on the line. -/
theorem State.AgreesBehindWindow.line {s t : State} (h : s.AgreesBehindWindow t) : t.line = s.line := by
  rw [h]
  rfl

/-! ## The acts on the line -/

/-- What the row `i` does on the line, one constructor per act, with what it has found when it makes it. -/
inductive State.LineActs (i : Instr) (s : State) : State → Prop
  | nothing : LineActs i s s
  | look : LineActs i s s.look
  | cancelWaiting (c : Context) (hc : s.context = some c) (hphase : s.phase = .gap ∨ s.phase = .holdoff) :
      LineActs i s (s.cancelWaiting c)
  | cancelFlying (c : Context) (hc : s.context = some c) (hphase : ¬ (s.phase = .gap ∨ s.phase = .holdoff)) :
      LineActs i s { s with context := some { c with cancelPending := true } }
  | start (hmode : s.mode = .stopped) : LineActs i s ({ s with mode := .running } : State).look
  | stop : LineActs i s s.stopLine
  | abort : LineActs i s (abortWork s).state
  | setLine (config : LineConfig) (hmode : s.mode = .stopped) : LineActs i s { s with lineConfig := config }
  | softReset : LineActs i s s.softReset
  | hardReset (held : Bool) (hi : i = .resetAssert ∨ i = .powerOn) : LineActs i s (s.hardReset held)
  | receive (r : Receiver) (hbreak : r.lineInBreak = s.receiver.lineInBreak) : LineActs i s { s with receiver := r }
  | beginReception (r : Receiver) (hbreak : r.lineInBreak = s.receiver.lineInBreak) (hphase : s.phase = .waiting) :
      LineActs i s ({ s with receiver := r } : State).beginReception
  | takeCharacter (r : Receiver) (d : Delivered) (hbreak : r.lineInBreak = s.receiver.lineInBreak) :
      LineActs i s (({ s with receiver := r } : State).takeCharacter d)
  | detectBreak : LineActs i s s.detectBreak
  | endBreak : LineActs i s s.endBreak
  | echoMissing (htx : s.tx ≠ .quiet) : LineActs i s s.collide
  | characterSent (place : Nat) (htx : s.tx ≠ .quiet) : LineActs i s (s.sendNext place)
  | telegramGapEnd : LineActs i s s.telegramGapEnd
  | deLeadEnd : LineActs i s s.deLeadEnd
  | deTrailEnd : LineActs i s s.deTrailEnd
  | answerTimerEnd : LineActs i s s.answerTimerEnd
  | characterGapEnd : LineActs i s s.characterGapEnd
  | settleEnd : LineActs i s s.settleEnd
  | holdoffEnd : LineActs i s s.holdoffEnd

/-- One act on the line, with changes that the line does not see before it and after it. -/
def State.LineReaches (i : Instr) (s t : State) : Prop :=
  ∃ s' t' : State, s'.line = s.line ∧ State.LineActs i s' t' ∧ t.line = t'.line

/-- An act alone. -/
theorem State.LineActs.reaches {i : Instr} {s t : State} (h : State.LineActs i s t) : State.LineReaches i s t :=
  ⟨s, t, rfl, h, rfl⟩

/-- A change that the line does not see. -/
theorem State.LineReaches.of_line {i : Instr} {s t : State} (h : t.line = s.line) : State.LineReaches i s t :=
  ⟨s, s, rfl, .nothing, h⟩

/-- A look after a change that the line does not see. -/
theorem State.LineReaches.of_look {i : Instr} {s t : State} (h : t.line = s.line) : State.LineReaches i s t.look :=
  ⟨t, t.look, h, .look, rfl⟩

/-! ## The work of the commands -/

/-- ALLOCATE (R119). -/
theorem allocateWork_line (s : State) : (allocateWork s).state.line = s.line := by
  unfold allocateWork
  split
  · rfl
  · exact s.takeHead_line _

/-- RELEASE (R119). -/
theorem releaseWork_reaches (i : Instr) (s : State) : State.LineReaches i s (releaseWork s).state := by
  unfold releaseWork
  dsimp only
  split
  · exact .of_line rfl
  · split
    · exact .of_look (s.changeOwner_line _ _ _)
    · exact .of_line rfl

/-- The queueing of a request is not seen on the line. -/
theorem State.enqueue_line (s : State) (a : Args) : (s.enqueue a).line = s.line :=
  s.changeOwnerOpt_line (bufferOfArg a.arg2) .host .queued

/-- SUBMIT (R45 to R48). -/
theorem submitWork_reaches (i : Instr) (s : State) : State.LineReaches i s (submitWork s).state := by
  unfold submitWork
  split
  · exact .of_line rfl
  · split
    · exact .of_line rfl
    · split
      · exact .of_line rfl
      · exact .of_look (s.enqueue_line _)

/-- CANCEL (R49 to R53). -/
theorem cancelWork_reaches (i : Instr) (s : State) : State.LineReaches i s (cancelWork s).state := by
  unfold cancelWork
  dsimp only
  split
  · exact .of_line rfl
  · split
    · rename_i r _
      exact .of_look ((s.removeRequest r.ticket).changeOwnerOpt_line _ _ _)
    · split
      · exact .of_line rfl
      · rename_i c hc
        split
        · split
          · exact (State.LineActs.cancelWaiting c hc ‹_›).reaches
          · exact (State.LineActs.cancelFlying c hc ‹_›).reaches
        · exact .of_line rfl

/-- TAKE (R135, R136). -/
theorem takeWork_reaches (i : Instr) (s : State) : State.LineReaches i s (takeWork s).state := by
  unfold takeWork
  split
  · exact .of_line rfl
  · exact .of_look (State.changeOwnerOpt_line _ _ _ _)

/-- START (R143). -/
theorem startWork_reaches (i : Instr) (s : State) : State.LineReaches i s (startWork s).state := by
  unfold startWork
  split
  · exact .of_line rfl
  · rename_i hmode
    split
    · exact .of_line rfl
    · exact (State.LineActs.start (by simpa using hmode)).reaches

/-- SET_LINE (R110). -/
theorem setLineWork_reaches (i : Instr) (s : State) : State.LineReaches i s (setLineWork s).state := by
  unfold setLineWork
  split
  · exact .of_line rfl
  · split
    · exact .of_line rfl
    · rename_i hmode
      exact (State.LineActs.setLine _ (by simpa using hmode)).reaches

/-- GET_LINE (R111). -/
theorem getLineWork_line (s : State) : (getLineWork s).state.line = s.line := by
  unfold getLineWork
  dsimp only
  split
  · rfl
  · dsimp only
    split <;> rfl

/-- SET_LIMITS (R148). -/
theorem setLimitsWork_line (s : State) : (setLimitsWork s).state.line = s.line := by
  unfold setLimitsWork
  split <;> rfl

/-- GET_LIMITS (R149). -/
theorem getLimitsWork_line (s : State) : (getLimitsWork s).state.line = s.line := by
  unfold getLimitsWork
  dsimp only
  split <;> rfl

/-- SET_STATION (R28 to R34). -/
theorem setStationWork_reaches (i : Instr) (s : State) : State.LineReaches i s (setStationWork s).state := by
  unfold setStationWork
  split
  · exact .of_line rfl
  · dsimp only
    split
    · exact .of_line (s.setStation_line _ _)
    · exact .of_look (s.setStation_line _ _)

/-- GET_STATION (R39). -/
theorem getStationWork_line (s : State) : (getStationWork s).state.line = s.line := by
  unfold getStationWork
  dsimp only
  split <;> rfl

/-- NEXT_CHANGE (R37). -/
theorem nextChangeWork_line (s : State) : (nextChangeWork s).state.line = s.line := by
  unfold nextChangeWork
  split
  · rfl
  · exact s.setStation_line _ _

/-- The work that a code selects (R174, R176). -/
theorem workOf_reaches (i : Instr) (code : Byte) (s : State) : State.LineReaches i s (workOf code s).state := by
  generalize hwork : workOf code = work
  unfold workOf at hwork
  split at hwork <;> subst hwork
  · exact .of_line (allocateWork_line s)
  · exact releaseWork_reaches i s
  · exact submitWork_reaches i s
  · exact cancelWork_reaches i s
  · exact takeWork_reaches i s
  · exact startWork_reaches i s
  · exact State.LineActs.stop.reaches
  · exact State.LineActs.abort.reaches
  · exact setLineWork_reaches i s
  · exact .of_line (getLineWork_line s)
  · exact .of_line (setLimitsWork_line s)
  · exact .of_line (getLimitsWork_line s)
  · exact setStationWork_reaches i s
  · exact .of_line (getStationWork_line s)
  · exact .of_line (nextChangeWork_line s)
  · exact .of_line rfl

/-! ## The rows -/

/-- A write of a command's code: the hand-over before the work, and BUSY after it, are not seen on the line (R171,
R173). -/
theorem State.hostCommand_lineReaches (i : Instr) (s : State) (code : Byte) {work : State → Handled}
    (hwork : ∀ x : State, State.LineReaches i x (work x).state) : State.LineReaches i s (s.hostCommand code work) := by
  rcases s.hostCommand_cases code work with ⟨-, h⟩ | ⟨-, -, h⟩ | ⟨-, -, h⟩ <;> rw [h]
  · exact .of_line rfl
  · exact .of_line rfl
  · obtain ⟨s', t', hfirst, hact, hlast⟩ := hwork (s.handedOver code)
    exact ⟨s', t', hfirst, hact, hlast⟩

/-- The row of a command that the line does not see. -/
theorem State.hostCommand_lineReaches_of_line (i : Instr) (s : State) (code : Byte) {work : State → Handled}
    (hwork : ∀ x : State, (work x).state.line = x.line) : State.LineReaches i s (s.hostCommand code work) :=
  s.hostCommand_lineReaches i code fun x => .of_line (hwork x)

/-- A row that RESET# holds off (R153). -/
theorem State.live_lineReaches {i : Instr} {s : State} {f : State → State} (hf : State.LineReaches i s (f s)) :
    State.LineReaches i s (s.live f) := by
  rcases s.live_cases f with ⟨-, h⟩ | ⟨-, h⟩ <;> rw [h]
  · exact .of_line rfl
  · exact hf

/-- A row that the line does not see. -/
theorem State.live_lineReaches_of_line {i : Instr} {s : State} {f : State → State} (hf : (f s).line = s.line) :
    State.LineReaches i s (s.live f) :=
  State.live_lineReaches (.of_line hf)

/-- A write of RESET's code (R154, R173). -/
theorem State.resetCommand_lineReaches (i : Instr) (s : State) : State.LineReaches i s s.resetCommand := by
  unfold State.resetCommand
  split
  · exact .of_line rfl
  · split
    · exact State.LineActs.softReset.reaches
    all_goals exact .of_line rfl

/-- A write of any code to COMMAND (R171, R173, R174). -/
theorem State.writeCommand_lineReaches (i : Instr) (s : State) (code : Byte) :
    State.LineReaches i s (s.writeCommand code) := by
  unfold State.writeCommand
  split
  · exact s.resetCommand_lineReaches i
  · exact s.hostCommand_lineReaches i code (workOf_reaches i code)

/-- A write access to any offset (R167). -/
theorem State.hostWrite_lineReaches (i : Instr) (s : State) (offset : Offset) (value : Byte) :
    State.LineReaches i s (s.hostWrite offset value) := by
  unfold State.hostWrite
  split
  case h_5 => exact s.writeCommand_lineReaches i value
  case h_8 => exact .of_line (s.writeBufData_agrees value).line
  case h_9 => split <;> exact .of_line rfl
  all_goals exact .of_line rfl

/-- A confirmed start bit (R4, R93). -/
theorem State.startCharacter_lineActs (i : Instr) (s : State) : State.LineActs i s s.startCharacter := by
  unfold State.startCharacter
  split
  · dsimp only
    split
    · exact .beginReception _ rfl ‹_›
    · exact .receive _ rfl
  · exact .nothing

/-- The delivery of a character (R4, R106). -/
theorem State.deliver_lineActs (i : Instr) (s : State) (data : Byte) (mark parity stop : Bool) :
    State.LineActs i s (s.deliver data mark parity stop) := by
  unfold State.deliver State.holdSpace
  split
  · split
    · dsimp only
      split
      · exact .beginReception _ rfl ‹_›
      · exact .receive _ rfl
    · exact .takeCharacter _ _ rfl
  · exact .nothing

/-- The end of a held-back space (R106). -/
theorem State.releaseSpace_lineActs (i : Instr) (s : State) : State.LineActs i s s.releaseSpace := by
  unfold State.releaseSpace
  split
  · exact .takeCharacter _ _ rfl
  · exact .nothing

/-- The return to mark after a framing failure (R4). -/
theorem State.returnToMark_lineActs (i : Instr) (s : State) : State.LineActs i s s.returnToMark := by
  unfold State.returnToMark
  split
  · exact .receive _ rfl
  · exact .nothing

/-- A station that falls due for a poll (R71). -/
theorem State.pollFallsDue_lineActs (i : Instr) (s : State) (a : Nat) : State.LineActs i s (s.pollFallsDue a) := by
  unfold State.pollFallsDue
  split
  · exact .look
  · exact .nothing

/-- A station that falls due for a probe (R72). -/
theorem State.probeFallsDue_lineActs (i : Instr) (s : State) (a : Nat) : State.LineActs i s (s.probeFallsDue a) := by
  unfold State.probeFallsDue
  split
  · exact .look
  · exact .nothing

/-- The holds that end (R67). -/
theorem State.endHolds_lineReaches (i : Instr) (s : State) : State.LineReaches i s s.endHolds := by
  unfold State.endHolds
  split
  · exact .of_look rfl
  · exact .of_line rfl

/-- The end of initialisation (R155). -/
theorem State.endInitialisation_line (s : State) : s.endInitialisation.line = s.line := by
  unfold State.endInitialisation
  split <;> rfl

/-- Every row makes one act on the line. -/
theorem exec_lineReaches {i : Instr} {s t : State} (h : exec i s = .next t) : State.LineReaches i s t := by
  cases i <;> cases h
  case reset => exact s.resetCommand_lineReaches _
  case unknownCommand code => exact s.writeCommand_lineReaches _ code
  case discardedCommandWrite code => exact s.writeCommand_lineReaches _ code
  case allocate => exact s.hostCommand_lineReaches_of_line _ _ allocateWork_line
  case release => exact s.hostCommand_lineReaches _ _ (releaseWork_reaches _)
  case submit => exact s.hostCommand_lineReaches _ _ (submitWork_reaches _)
  case cancel => exact s.hostCommand_lineReaches _ _ (cancelWork_reaches _)
  case take => exact s.hostCommand_lineReaches _ _ (takeWork_reaches _)
  case start => exact s.hostCommand_lineReaches _ _ (startWork_reaches _)
  case stop => exact s.hostCommand_lineReaches _ _ fun _ => State.LineActs.stop.reaches
  case abort => exact s.hostCommand_lineReaches _ _ fun _ => State.LineActs.abort.reaches
  case setLine => exact s.hostCommand_lineReaches _ _ (setLineWork_reaches _)
  case getLine => exact s.hostCommand_lineReaches_of_line _ _ getLineWork_line
  case setLimits => exact s.hostCommand_lineReaches_of_line _ _ setLimitsWork_line
  case getLimits => exact s.hostCommand_lineReaches_of_line _ _ getLimitsWork_line
  case setStation => exact s.hostCommand_lineReaches _ _ (setStationWork_reaches _)
  case getStation => exact s.hostCommand_lineReaches_of_line _ _ getStationWork_line
  case nextChange => exact s.hostCommand_lineReaches_of_line _ _ nextChangeWork_line
  case commandCompletion => exact State.live_lineReaches_of_line s.completeCommand_agrees.line
  case eventsWrite bank value => exact State.live_lineReaches_of_line rfl
  case enableWrite bank value => exact State.live_lineReaches_of_line (s.writeEnable_agrees bank value).line
  case bufSelectWrite value => exact State.live_lineReaches_of_line rfl
  case bufOffsetWrite value => exact State.live_lineReaches_of_line rfl
  case bufDataRead => exact State.live_lineReaches_of_line s.readBufData_agrees.line
  case bufDataWrite value => exact State.live_lineReaches_of_line (s.writeBufData_agrees value).line
  case timeLoRead => exact State.live_lineReaches_of_line rfl
  case registerWrite offset value => exact State.live_lineReaches (s.hostWrite_lineReaches _ offset value)
  case resetAssert => exact (State.LineActs.hardReset _ (.inl rfl)).reaches
  case resetRelease => exact .of_line rfl
  case powerOn => exact (State.LineActs.hardReset _ (.inr rfl)).reaches
  case initialisationEnd => exact State.live_lineReaches_of_line s.endInitialisation_line
  case characterDelivered d m p st => exact State.live_lineReaches (s.deliver_lineActs _ d m p st).reaches
  case confirmedStartBit => exact State.live_lineReaches (s.startCharacter_lineActs _).reaches
  case spaceCharacter => exact State.live_lineReaches (s.releaseSpace_lineActs _).reaches
  case breakDetected => exact State.live_lineReaches State.LineActs.detectBreak.reaches
  case breakEnd => exact State.live_lineReaches State.LineActs.endBreak.reaches
  case telegramGapExpiry => exact State.live_lineReaches State.LineActs.telegramGapEnd.reaches
  case deLeadExpiry => exact State.live_lineReaches State.LineActs.deLeadEnd.reaches
  case deTrailExpiry => exact State.live_lineReaches State.LineActs.deTrailEnd.reaches
  case echoMissing =>
    refine State.live_lineReaches ?_
    split
    · rename_i htx
      exact (State.LineActs.echoMissing (by simp [htx])).reaches
    all_goals exact .of_line rfl
  case characterSent =>
    refine State.live_lineReaches ?_
    split
    · rename_i htx
      exact (State.LineActs.characterSent _ (by simp [htx])).reaches
    all_goals exact .of_line rfl
  case answerTimerExpiry => exact State.live_lineReaches State.LineActs.answerTimerEnd.reaches
  case characterGapExpiry => exact State.live_lineReaches State.LineActs.characterGapEnd.reaches
  case settleTimerExpiry => exact State.live_lineReaches State.LineActs.settleEnd.reaches
  case holdoffExpiry => exact State.live_lineReaches State.LineActs.holdoffEnd.reaches
  case timeCounterTick =>
    exact State.live_lineReaches_of_line ((State.tick100_line s.tick10).trans s.tick10_line)
  case tenMsTick => exact State.live_lineReaches_of_line s.tick10_line
  case hundredMsTick => exact State.live_lineReaches_of_line s.tick100_line
  case pollCountdownExpiry a => exact State.live_lineReaches (s.pollFallsDue_lineActs _ a).reaches
  case probeCountdownExpiry a => exact State.live_lineReaches (s.probeFallsDue_lineActs _ a).reaches
  case holdEnd => exact State.live_lineReaches (s.endHolds_lineReaches _)
  case rxdReturnToMark => exact State.live_lineReaches (s.returnToMark_lineActs _).reaches

/-! ## What the shared operations leave of the line -/

/-- A closing removes the context; of the rest the line sees nothing (R102). -/
theorem State.close_line (s : State) (c : Context) (record : Option ResultRecord) (clearSync : Bool) :
    (s.close c record clearSync).line = State.line { s with context := none } := by
  simp [State.line]

/-- An early closing removes the context (R102). -/
theorem State.closeEarly_line (s : State) (c : Context) (outcome : ResultOutcome) (cancelRequested taken : Bool) :
    (s.closeEarly c outcome cancelRequested taken).line = State.line { s with context := none } := by
  obtain ⟨record, clear, heq, -⟩ := s.closeEarly_eq_close c outcome cancelRequested taken
  rw [heq, State.close_line]

/-- The decision on a request changes the context alone of what the line sees (R100). -/
theorem State.decideRequest_line (s : State) (c : Context) (v : Verdict) (lost : Bool) :
    (s.decideRequest c v lost).line = State.line { s with context := (s.decideRequest c v lost).context } := by
  rcases s.decideRequest_cases c v lost with ⟨r, heq⟩ | heq | ⟨-, heq⟩ <;> rw [heq]
  · rw [State.close_line, State.close_context]
  · simp [State.busyReturn, State.line]

/-- A verdict that takes effect changes the context alone of what the line sees (R99). -/
theorem State.takeVerdict_line (s : State) :
    s.takeVerdict.line = State.line { s with context := s.takeVerdict.context } := by
  rcases s.takeVerdict_cases with heq | ⟨c, -, ⟨-, r, heq⟩ | ⟨v, -, -, ⟨-, lost, heq⟩ | ⟨-, heq⟩⟩⟩ <;> rw [heq]
  · rw [State.close_line, State.close_context]
  · rw [State.decideRequest_line, State.setStation_eq]
    rfl
  · obtain ⟨record, placed, hplaced, heq⟩ :=
      (s.setStation c.station (s.entryAfter c v)).decidePoll_cases c v
    rw [heq, State.close_line, State.close_context]
    rcases hplaced with rfl | ⟨e, rfl⟩ <;> simp [State.line]

/-- States with equal line fields have one line configuration. -/
theorem State.lineConfig_of_line {s t : State} (h : t.line = s.line) : t.lineConfig = s.lineConfig := by
  obtain ⟨-, -, -, -, -, -, hconfig⟩ := State.line_fields h
  exact hconfig

end Sys2Proof.Machine
end

section
/-! SUPPORT. The line configuration changes only by SET_LINE, in STOPPED, and by the resets: what each act on the line
leaves of it. -/

namespace Sys2Proof.Machine

/-! ## The shared operations -/

@[simp] theorem State.closeEarly_lineConfig (s : State) (c : Context) (outcome : ResultOutcome)
    (cancelRequested taken : Bool) : (s.closeEarly c outcome cancelRequested taken).lineConfig = s.lineConfig :=
  State.lineConfig_of_line (s := { s with context := none }) (s.closeEarly_line c outcome cancelRequested taken)

@[simp] theorem State.takeVerdict_lineConfig (s : State) : s.takeVerdict.lineConfig = s.lineConfig :=
  State.lineConfig_of_line (s := { s with context := s.takeVerdict.context }) s.takeVerdict_line

@[simp] theorem State.dispatchRequest_lineConfig (s : State) (r : Request) :
    (s.dispatchRequest r).lineConfig = s.lineConfig := by
  unfold State.dispatchRequest
  cases r.needsBuffer <;> simp

@[simp] theorem State.dispatchPoll_lineConfig (s : State) (a : Nat) : (s.dispatchPoll a).lineConfig = s.lineConfig := by
  simp [State.dispatchPoll]

@[simp] theorem State.completeAtDispatch_lineConfig (s : State) (r : Request) :
    (s.completeAtDispatch r).lineConfig = s.lineConfig := by
  simp [State.completeAtDispatch]

/-- A look leaves the line configuration (R57). -/
@[simp] theorem State.look_lineConfig (s : State) : s.look.lineConfig = s.lineConfig := by
  refine State.look_keeps (P := fun x => x.lineConfig = s.lineConfig) rfl (fun _ hx => hx) (fun x hx _ => ?_)
    (fun x r hx _ _ _ _ _ => ?_) (fun x r hx _ _ _ _ _ => ?_) (fun x a hx _ _ _ _ _ _ => ?_)
  · rw [State.stalledLook_frame]
    exact hx
  · rwa [State.completeAtDispatch_lineConfig]
  · rwa [State.dispatchRequest_lineConfig]
  · rwa [State.dispatchPoll_lineConfig]

/-! ## What the acts leave of the line configuration -/

@[simp] theorem State.collide_lineConfig (s : State) : s.collide.lineConfig = s.lineConfig := by
  unfold State.collide
  split
  · rfl
  · dsimp only
    split
    · simp
    · split <;> simp

@[simp] theorem State.beginCall_lineConfig (s : State) : s.beginCall.lineConfig = s.lineConfig := by
  unfold State.beginCall
  split
  · rfl
  · dsimp only
    split <;> simp

@[simp] theorem State.completeCall_lineConfig (s : State) : s.completeCall.lineConfig = s.lineConfig := by
  rw [State.completeCall_frame]

@[simp] theorem State.sendNext_lineConfig (s : State) (i : Nat) : (s.sendNext i).lineConfig = s.lineConfig := by
  rw [State.sendNext_frame]

@[simp] theorem State.enterCalling_lineConfig (s : State) : s.enterCalling.lineConfig = s.lineConfig := by
  unfold State.enterCalling
  dsimp only
  split <;> simp

@[simp] theorem State.beginReception_lineConfig (s : State) : s.beginReception.lineConfig = s.lineConfig := by
  rw [State.beginReception_eq]

@[simp] theorem State.breakReception_lineConfig (s : State) : s.breakReception.lineConfig = s.lineConfig := by
  rw [State.breakReception_frame]

@[simp] theorem State.answerCharacter_lineConfig (s : State) (d : Delivered) :
    (s.answerCharacter d).lineConfig = s.lineConfig := by
  rw [State.answerCharacter_frame]

@[simp] theorem State.unaskedCharacter_lineConfig (s : State) (d : Delivered) :
    (s.unaskedCharacter d).lineConfig = s.lineConfig := by
  unfold State.unaskedCharacter State.reloadQuiet
  split
  · simp
  · split <;> simp

@[simp] theorem State.lateCharacter_lineConfig (s : State) : s.lateCharacter.lineConfig = s.lineConfig := by
  unfold State.lateCharacter
  split
  · rfl
  · dsimp only
    split <;> simp

@[simp] theorem State.echoCheck_lineConfig (s : State) (d : Delivered) :
    (s.echoCheck d).lineConfig = s.lineConfig := by
  unfold State.echoCheck
  split
  · split <;> simp
  all_goals exact s.collide_lineConfig

@[simp] theorem State.stoppedCharacter_lineConfig (s : State) (d : Delivered) :
    (s.stoppedCharacter d).lineConfig = s.lineConfig := by
  unfold State.stoppedCharacter
  split <;> simp

/-- A delivered character leaves the line configuration (R4). -/
@[simp] theorem State.takeCharacter_lineConfig (s : State) (d : Delivered) :
    (s.takeCharacter d).lineConfig = s.lineConfig := by
  unfold State.takeCharacter
  split
  · simp
  · split
    · simp
    · split <;> simp

/-- A break leaves the line configuration (R106). -/
@[simp] theorem State.detectBreak_lineConfig (s : State) : s.detectBreak.lineConfig = s.lineConfig := by
  unfold State.detectBreak
  split
  · rfl
  · dsimp only
    split <;> simp

/-- The end of a break leaves the line configuration (R107). -/
@[simp] theorem State.endBreak_lineConfig (s : State) : s.endBreak.lineConfig = s.lineConfig := by
  unfold State.endBreak
  split
  · dsimp only
    split
    · rfl
    · split <;> simp
  · rfl

/-- CANCEL in GAP or HOLDOFF leaves the line configuration (R52). -/
@[simp] theorem State.cancelWaiting_lineConfig (s : State) (c : Context) :
    (s.cancelWaiting c).lineConfig = s.lineConfig := by
  unfold State.cancelWaiting
  dsimp only
  split <;> simp

/-- STOP leaves the line configuration (R144). -/
@[simp] theorem State.stopLine_lineConfig (s : State) : s.stopLine.lineConfig = s.lineConfig := by
  unfold State.stopLine
  split
  · simp
  all_goals split <;> simp

/-- ABORT leaves the line configuration (R146). -/
@[simp] theorem State.abort_lineConfig (s : State) : (abortWork s).state.lineConfig = s.lineConfig := by
  cases hc : s.context with
  | none => simp [abortWork_of_idle hc]
  | some c => simp [abortWork_of_flight hc]

/-- An act on the line that changes the line configuration is SET_LINE in STOPPED, or a reset (R109, R110). -/
theorem State.LineActs.lineConfig {i : Instr} {s t : State} (h : State.LineActs i s t) :
    t.lineConfig = s.lineConfig ∨ s.mode = .stopped ∨ i = .resetAssert ∨ i = .powerOn := by
  cases h with
  | setLine config hmode => exact .inr (.inl hmode)
  | hardReset held hi => exact .inr (.inr hi)
  | nothing => exact .inl rfl
  | look => exact .inl s.look_lineConfig
  | cancelWaiting c hc hphase => exact .inl (s.cancelWaiting_lineConfig c)
  | cancelFlying c hc hphase => exact .inl rfl
  | start hmode => exact .inr (.inl hmode)
  | stop => exact .inl s.stopLine_lineConfig
  | abort => exact .inl s.abort_lineConfig
  | softReset => exact .inl rfl
  | receive r hbreak => exact .inl rfl
  | beginReception r hbreak hphase => exact .inl (State.beginReception_lineConfig _)
  | takeCharacter r d hbreak => exact .inl (State.takeCharacter_lineConfig _ d)
  | detectBreak => exact .inl s.detectBreak_lineConfig
  | endBreak => exact .inl s.endBreak_lineConfig
  | echoMissing htx => exact .inl s.collide_lineConfig
  | characterSent place htx => exact .inl (s.sendNext_lineConfig place)
  | telegramGapEnd =>
    unfold State.telegramGapEnd
    split <;> simp
  | deLeadEnd =>
    unfold State.deLeadEnd
    split <;> simp
  | deTrailEnd =>
    unfold State.deTrailEnd
    split <;> simp
  | answerTimerEnd =>
    unfold State.answerTimerEnd
    split <;> simp
  | characterGapEnd =>
    unfold State.characterGapEnd
    split <;> simp
  | settleEnd =>
    unfold State.settleEnd
    split
    · dsimp only
      split <;> simp
    · exact .inl rfl
  | holdoffEnd =>
    unfold State.holdoffEnd
    split
    · split <;> simp
    · exact .inl rfl

/-- Settles O23: every row makes one act on the line, and the line sees nothing of what comes before and after it. -/
theorem lineConfigChangesOnlyInStopped : Obligations.LineConfigChangesOnlyInStopped := by
  intro i s t hexec hchanged
  obtain ⟨s', t', hfirst, hact, hlast⟩ := exec_lineReaches hexec
  obtain ⟨-, -, hmode, -, -, -, hconfig⟩ := State.line_fields hfirst
  rw [State.lineConfig_of_line hlast, ← hconfig] at hchanged
  rw [← hmode]
  exact hact.lineConfig.resolve_left hchanged

end Sys2Proof.Machine
end

section
/-! SUPPORT. DE, the phase, the mode and the transaction in flight stay in agreement: what the invariant says of each
phase, and that each act on the line keeps it. -/

namespace Sys2Proof.Machine

/-! ## The invariant, phase by phase -/

/-- DE is released and the sender is quiet. -/
def State.Released (s : State) : Prop :=
  s.de = false ∧ s.tx = .quiet

/-- An attempt to a station has been judged; a broadcast needs no judgement. -/
def Context.Judged (c : Context) : Prop :=
  c.station ≠ 0 → c.verdict.isSome = true

/-- The invariant speaks only of what the line sees. -/
theorem State.LineOk.of_line {s t : State} (h : s.LineOk) (hline : t.line = s.line) : t.LineOk := by
  obtain ⟨hde, htx, hmode, hphase, hcontext, hreceiver, -⟩ := State.line_fields hline
  simpa only [State.LineOk, hde, htx, hmode, hphase, hcontext, hreceiver] using h

/-- IDLE, with nothing in flight. -/
theorem State.LineOk.of_idle {s : State} (hrel : s.Released) (hphase : s.phase = .idle) (hc : s.context = none)
    (hmode : s.mode ≠ .draining) : s.LineOk := by
  obtain ⟨hde, htx⟩ := hrel
  simp [State.LineOk, LinePhase.allows, hde, htx, hphase, hc, hmode]

/-- HOLDOFF, with a transaction in flight or without. -/
theorem State.LineOk.of_holdoff {s : State} (hrel : s.Released) (hphase : s.phase = .holdoff)
    (hmode : s.mode ≠ .stopped) (hdrain : s.mode = .draining → s.context.isSome = true)
    (hcancel : ∀ c ∈ s.context, c.cancelPending = false) : s.LineOk := by
  obtain ⟨hde, htx⟩ := hrel
  simpa [State.LineOk, LinePhase.allows, hde, htx, hphase, hmode] using ⟨hdrain, hcancel⟩

/-- GAP, before a call. -/
theorem State.LineOk.of_gap {s : State} {c : Context} (hrel : s.Released) (hphase : s.phase = .gap)
    (hmode : s.mode ≠ .stopped) (hc : s.context = some c) (hcancel : c.cancelPending = false) : s.LineOk := by
  obtain ⟨hde, htx⟩ := hrel
  simp [State.LineOk, LinePhase.allows, hde, htx, hphase, hmode, hc, hcancel]

/-- CALLING: DE is asserted and the sender is at work. -/
theorem State.LineOk.of_calling {s : State} {c : Context} (hde : s.de = true) (htx : s.tx ≠ .quiet)
    (hphase : s.phase = .calling) (hmode : s.mode ≠ .stopped) (hc : s.context = some c)
    (hbreak : s.receiver.lineInBreak = false) : s.LineOk := by
  simp [State.LineOk, LinePhase.allows, hde, htx, hphase, hmode, hc, hbreak]

/-- WAITING, on a line that is not in break. -/
theorem State.LineOk.of_waiting {s : State} {c : Context} (hrel : s.Released) (hphase : s.phase = .waiting)
    (hmode : s.mode ≠ .stopped) (hc : s.context = some c) (hbreak : s.receiver.lineInBreak = false) : s.LineOk := by
  obtain ⟨hde, htx⟩ := hrel
  simp [State.LineOk, LinePhase.allows, hde, htx, hphase, hmode, hc, hbreak]

/-- RECEIVING: an attempt that a break has cut short is judged. -/
theorem State.LineOk.of_receiving {s : State} {c : Context} (hrel : s.Released) (hphase : s.phase = .receiving)
    (hmode : s.mode ≠ .stopped) (hc : s.context = some c)
    (hjudged : s.receiver.lineInBreak = true → c.Judged) : s.LineOk := by
  obtain ⟨hde, htx⟩ := hrel
  simpa [State.LineOk, LinePhase.allows, hde, htx, hphase, hmode, hc, Context.Judged] using hjudged

/-- SETTLING: the attempt is judged. -/
theorem State.LineOk.of_settling {s : State} {c : Context} (hrel : s.Released) (hphase : s.phase = .settling)
    (hmode : s.mode ≠ .stopped) (hc : s.context = some c) (hjudged : c.Judged) : s.LineOk := by
  obtain ⟨hde, htx⟩ := hrel
  simpa [State.LineOk, LinePhase.allows, hde, htx, hphase, hmode, hc, Context.Judged] using hjudged

/-- Outside CALLING the line is released. -/
theorem State.LineOk.released {s : State} (h : s.LineOk) (hphase : s.phase ≠ .calling) : s.Released := by
  obtain ⟨hde, htx, -⟩ := h
  exact ⟨by simpa [hphase] using hde, htx.2 hphase⟩

/-- A sender at work is in CALLING. -/
theorem State.LineOk.calling_of_tx {s : State} (h : s.LineOk) (htx : s.tx ≠ .quiet) : s.phase = .calling := by
  obtain ⟨-, hquiet, -⟩ := h
  by_contra hphase
  exact htx (hquiet.2 hphase)

/-- A part that is STOPPED is in IDLE. -/
theorem State.LineOk.not_stopped {s : State} (h : s.LineOk) (hphase : s.phase ≠ .idle) : s.mode ≠ .stopped := by
  obtain ⟨-, -, -, hstopped, -⟩ := h
  exact mt hstopped hphase

/-- IDLE has nothing in flight. -/
theorem State.LineOk.context_of_idle {s : State} (h : s.LineOk) (hphase : s.phase = .idle) : s.context = none := by
  obtain ⟨-, -, hallows, -⟩ := h
  simpa [hphase, LinePhase.allows] using hallows

/-- With nothing in flight the phase is IDLE or HOLDOFF. -/
theorem State.LineOk.phase_of_idle {s : State} (h : s.LineOk) (hc : s.context = none) :
    s.phase = .idle ∨ s.phase = .holdoff := by
  obtain ⟨-, -, hallows, -⟩ := h
  cases hphase : s.phase <;> simp [hphase, hc, LinePhase.allows] at hallows ⊢

/-- Every phase but IDLE and HOLDOFF has a transaction in flight. -/
theorem State.LineOk.exists_context {s : State} (h : s.LineOk) (hidle : s.phase ≠ .idle)
    (hholdoff : s.phase ≠ .holdoff) : ∃ c, s.context = some c := by
  by_contra hnone
  rcases h.phase_of_idle (by simpa [Option.eq_none_iff_forall_ne_some] using hnone) with hphase | hphase
  · exact hidle hphase
  · exact hholdoff hphase

/-- A drain goes on with a transaction in flight. -/
theorem State.LineOk.not_draining {s : State} (h : s.LineOk) (hc : s.context = none) : s.mode ≠ .draining := by
  obtain ⟨-, -, -, -, hdrain, -⟩ := h
  intro hmode
  simpa [hc] using hdrain hmode

/-- No pending cancel stands outside a call and its answer. -/
theorem State.LineOk.no_cancel {s : State} (h : s.LineOk)
    (hphase : s.phase = .idle ∨ s.phase = .gap ∨ s.phase = .holdoff) : ∀ c ∈ s.context, c.cancelPending = false := by
  obtain ⟨-, -, -, -, -, hcancel, -⟩ := id h
  rcases hphase with hphase | hphase
  · simp [h.context_of_idle hphase]
  · exact hcancel hphase

/-- No break stands in CALLING or WAITING. -/
theorem State.LineOk.no_break {s : State} (h : s.LineOk) (hphase : s.phase = .calling ∨ s.phase = .waiting) :
    s.receiver.lineInBreak = false := by
  obtain ⟨-, -, -, -, -, -, hbreak, -⟩ := h
  by_contra hin
  obtain ⟨hcalling, hwaiting⟩ := hbreak (by simpa using hin)
  exact hphase.elim hcalling hwaiting

/-- An attempt that settles, or that a break has cut short, is judged. -/
theorem State.LineOk.judged {s : State} {c : Context} (h : s.LineOk) (hc : s.context = some c)
    (hphase : s.phase = .settling ∨ s.phase = .receiving ∧ s.receiver.lineInBreak = true) : c.Judged := by
  obtain ⟨-, -, -, -, -, -, -, hjudged⟩ := h
  exact hjudged hphase c hc

/-! ## The shared operations -/

/-- The receiver may change as long as it does not come to be in break. -/
theorem State.LineOk.receive {s : State} (h : s.LineOk) (r : Receiver)
    (hbreak : r.lineInBreak = true → s.receiver.lineInBreak = true) : State.LineOk { s with receiver := r } := by
  obtain ⟨hde, htx, hallows, hstopped, hdrain, hcancel, hin, hjudged⟩ := h
  exact ⟨hde, htx, hallows, hstopped, hdrain, hcancel, fun hr => hin (hbreak hr),
    fun hphase => hjudged (hphase.imp_right (And.imp_right hbreak))⟩

/-- The transaction in flight may change as long as its station, a pending cancel in GAP and HOLDOFF, and a judgement
stay. -/
theorem State.LineOk.replace {s : State} {c c' : Context} (h : s.LineOk) (hc : s.context = some c)
    (hcancel : s.phase = .gap ∨ s.phase = .holdoff → c'.cancelPending = c.cancelPending)
    (hjudged : c.Judged → c'.Judged) : State.LineOk { s with context := some c' } := by
  obtain ⟨hde, htx, hallows, hstopped, hdrain, hno, hin, hverdict⟩ := h
  rw [hc] at hallows hdrain
  refine ⟨hde, htx, hallows, hstopped, hdrain, ?_, hin, ?_⟩
  · rintro hphase x ⟨⟩
    exact (hcancel hphase).trans (hno hphase c hc)
  · rintro hphase x ⟨⟩
    exact hjudged (hverdict hphase c hc)

/-- What ends with nothing in flight ends a drain: the part is in IDLE, or in HOLDOFF while it runs (R102, R145). -/
theorem State.LineOk.endDrain_of_none {s : State} (hrel : s.Released) (hc : s.context = none)
    (hphase : s.phase = .idle ∨ s.phase = .holdoff ∧ s.mode ≠ .stopped) : s.endDrain.LineOk := by
  rcases s.endDrain_cases with ⟨-, -, heq⟩ | ⟨hgoes, heq⟩ <;> rw [heq]
  · exact .of_idle hrel rfl hc nofun
  · have hmode : s.mode ≠ .draining := hgoes.resolve_right (absurd hc)
    rcases hphase with hidle | ⟨hholdoff, hrunning⟩
    · exact .of_idle hrel hidle hc hmode
    · exact .of_holdoff hrel hholdoff hrunning (absurd · hmode) (by simp [hc])

/-- The dispatch of a request, as the line sees it (R62). -/
theorem State.dispatchRequest_line (s : State) (r : Request) :
    ∃ c : Context, (s.dispatchRequest r).line = State.line { s with context := some c, phase := .gap } ∧
      c.cancelPending = false := by
  refine ⟨r.contextWith (if r.needsBuffer then s.freeList.head? else none), ?_, rfl⟩
  unfold State.dispatchRequest
  cases r.needsBuffer <;> simp [State.line, Request.contextWith]

/-- The dispatch of a poll or a probe, as the line sees it (R63). -/
theorem State.dispatchPoll_line (s : State) (a : Nat) :
    ∃ c : Context, (s.dispatchPoll a).line = State.line { s with context := some c, phase := .gap } ∧
      c.cancelPending = false := by
  obtain ⟨c, hc, hcancel⟩ : ∃ c, (s.dispatchPoll a).context = some c ∧ c.cancelPending = false := ⟨_, rfl, rfl⟩
  refine ⟨c, ?_, hcancel⟩
  rw [← hc]
  simp [State.dispatchPoll, State.line]

/-- A dispatch from IDLE enters GAP (R62, R63). -/
theorem State.LineOk.dispatched {s t : State} {c : Context} (h : s.LineOk) (hcan : s.canLook = true)
    (hline : t.line = State.line { s with context := some c, phase := .gap }) (hcancel : c.cancelPending = false) :
    t.LineOk := by
  obtain ⟨hmode, hphase, -⟩ := s.canLook_iff.1 hcan
  have hgap : State.LineOk { s with context := some c, phase := .gap } :=
    .of_gap (h.released (by simp [hphase])) rfl (by simp [hmode]) rfl hcancel
  exact hgap.of_line hline

/-- A look keeps the invariant: a dispatch enters GAP from IDLE, with no cancel pending (R57 to R64). -/
theorem State.LineOk.look {s : State} (h : s.LineOk) : s.look.LineOk := by
  refine State.look_keeps h (fun _ hx => hx) (fun x hx _ => ?_) (fun x r hx _ _ _ _ _ => ?_)
    (fun x r hx hcan _ _ _ _ => ?_) (fun x a hx hcan _ _ _ _ _ => ?_)
  · rw [State.stalledLook_frame]
    exact hx
  · exact hx.of_line (by simp [State.completeAtDispatch, State.line])
  · obtain ⟨c, hline, hcancel⟩ := x.dispatchRequest_line r
    exact hx.dispatched hcan hline hcancel
  · obtain ⟨c, hline, hcancel⟩ := x.dispatchPoll_line a
    exact hx.dispatched hcan hline hcancel

/-- An early closing outside CALLING ends with nothing in flight (R102). -/
theorem State.closeEarly_released {s : State} (hrel : s.Released) (c : Context) (outcome : ResultOutcome)
    (cancelRequested taken : Bool) : (s.closeEarly c outcome cancelRequested taken).Released := by
  obtain ⟨record, clear, heq, -⟩ := s.closeEarly_eq_close c outcome cancelRequested taken
  rw [heq]
  simpa [State.Released] using hrel

/-! ## The sending of a call -/

/-- A collision releases the line and goes to HOLDOFF; one that ends the transaction in DRAINING ends the drain (R91,
R145). -/
theorem State.LineOk.of_collide {s : State} {c : Context} (hc : s.context = some c) (hmode : s.mode ≠ .stopped) :
    s.collide.LineOk := by
  have hended : ∀ (t : State) (outcome : ResultOutcome), t.Released → t.phase = .holdoff → t.mode = s.mode →
      (t.closeEarly c.collided outcome false true).endDrain.LineOk := by
    intro t outcome hrel hphase htmode
    obtain ⟨-, -, hm, hp, hnone, -⟩ := State.line_fields (t.closeEarly_line c.collided outcome false true)
    exact .endDrain_of_none (State.closeEarly_released hrel _ _ _ _) hnone
      (.inr ⟨hp.trans hphase, by rw [hm]; exact htmode ▸ hmode⟩)
  by_cases hlimit : 4 ≤ c.collisions + 1
  · rw [State.collide_of_limit hc hlimit]
    exact hended _ _ ⟨rfl, rfl⟩ rfl rfl
  · cases hcancel : c.cancelPending with
    | true =>
      rw [State.collide_of_cancel hc (by omega) hcancel]
      exact hended _ _ ⟨rfl, rfl⟩ rfl rfl
    | false =>
      rw [State.collide_of_resend hc (by omega) hcancel]
      refine .of_holdoff ⟨rfl, rfl⟩ rfl hmode (fun _ => rfl) ?_
      rintro x ⟨⟩
      exact hcancel

/-- A collision in CALLING. -/
theorem State.LineOk.collide {s : State} (h : s.LineOk) (hphase : s.phase = .calling) : s.collide.LineOk := by
  obtain ⟨c, hc⟩ := h.exists_context (by simp [hphase]) (by simp [hphase])
  exact .of_collide hc (h.not_stopped (by simp [hphase]))

/-- The sender goes on within CALLING. -/
theorem State.LineOk.sending {s t : State} {c : Context} (h : s.LineOk) (hphase : s.phase = .calling)
    (htx : t.tx ≠ .quiet) (hc : t.context = some c)
    (hline : t.line = State.line { s with tx := t.tx, context := t.context }) : t.LineOk := by
  obtain ⟨hde, -⟩ := id h
  have hcalling : State.LineOk { s with tx := t.tx, context := t.context } :=
    .of_calling (hde.2 hphase) htx hphase (h.not_stopped (by simp [hphase])) hc (h.no_break (.inl hphase))
  exact hcalling.of_line hline

/-- The first start bit of a call (R89). -/
theorem State.LineOk.beginCall {s : State} (h : s.LineOk) (hphase : s.phase = .calling) : s.beginCall.LineOk := by
  obtain ⟨c, hc⟩ := h.exists_context (by simp [hphase]) (by simp [hphase])
  rw [State.beginCall_eq hc rfl]
  exact h.sending hphase nofun rfl rfl

/-- The end of GAP asserts DE in CALLING, on a line that is quiet (R88, R89). -/
theorem State.LineOk.telegramGapEnd {s : State} (h : s.LineOk) : s.telegramGapEnd.LineOk := by
  unfold State.telegramGapEnd
  split
  · rename_i hends
    obtain ⟨hphase, hquiet⟩ := hends
    obtain ⟨c, hc⟩ := h.exists_context (by simp [hphase]) (by simp [hphase])
    have hbreak : s.receiver.lineInBreak = false := by simpa using (Bool.and_eq_true_iff.1 hquiet).2
    have hlead : s.leadBegun.LineOk := .of_calling rfl nofun rfl (h.not_stopped (by simp [hphase])) hc hbreak
    unfold State.enterCalling
    dsimp only
    split
    · exact hlead.beginCall rfl
    · exact hlead
  · exact h

/-- The end of the DE lead (R89). -/
theorem State.LineOk.deLeadEnd {s : State} (h : s.LineOk) : s.deLeadEnd.LineOk := by
  unfold State.deLeadEnd
  split
  · rename_i htx
    exact h.beginCall (h.calling_of_tx (by simp [htx]))
  · exact h

/-- A complete call releases the line: a broadcast settles, and a call to a station awaits its answer (R89). -/
theorem State.LineOk.completeCall {s : State} (h : s.LineOk) (hphase : s.phase = .calling) :
    s.completeCall.LineOk := by
  obtain ⟨c, hc⟩ := h.exists_context (by simp [hphase]) (by simp [hphase])
  have hmode : s.mode ≠ .stopped := h.not_stopped (by simp [hphase])
  by_cases h0 : c.station = 0
  · rw [State.completeCall_of_broadcast hc h0]
    exact .of_settling ⟨rfl, rfl⟩ rfl hmode rfl (absurd h0)
  · rw [State.completeCall_of_station hc h0]
    exact .of_waiting ⟨rfl, rfl⟩ rfl hmode rfl (h.no_break (.inl hphase))

/-- The end of the DE trail (R89). -/
theorem State.LineOk.deTrailEnd {s : State} (h : s.LineOk) : s.deTrailEnd.LineOk := by
  unfold State.deTrailEnd
  split
  · rename_i htx
    exact h.completeCall (h.calling_of_tx (by simp [htx]))
  · exact h

/-- The end of a sent character: the next one, the trail, or the end of the call (R89). -/
theorem State.LineOk.sendNext {s : State} (h : s.LineOk) (hphase : s.phase = .calling) (place : Nat) :
    (s.sendNext place).LineOk := by
  obtain ⟨c, hc⟩ := h.exists_context (by simp [hphase]) (by simp [hphase])
  cases hnext : (s.callTelegram c (c.callBits.getD (c.decideCallBits (s.station c.station))))[place + 1]? with
  | some next =>
    rw [State.sendNext_of_more hc rfl hnext]
    exact h.sending hphase nofun hc rfl
  | none =>
    have htrail : s.trailBegun.LineOk := h.sending hphase nofun hc rfl
    rw [State.sendNext_of_last hc rfl (List.getElem?_eq_none_iff.1 hnext)]
    split
    · exact htrail.completeCall hphase
    · exact htrail

/-! ## Characters -/

/-- HOLDOFF is entered by a part that runs, outside a call and its answer (R104, R107). -/
theorem State.LineOk.enterHoldoff {s : State} (h : s.LineOk) (hmode : s.mode ≠ .stopped)
    (hphase : s.phase = .idle ∨ s.phase = .gap ∨ s.phase = .holdoff) : s.enterHoldoff.LineOk := by
  obtain ⟨-, -, -, -, hdrain, -⟩ := id h
  refine .of_holdoff (h.released ?_) rfl hmode hdrain (h.no_cancel hphase)
  rcases hphase with hp | hp | hp <;> simp [hp]

/-- A character that was not asked for (R104). -/
theorem State.LineOk.unaskedCharacter {s : State} (h : s.LineOk) (hmode : s.mode ≠ .stopped)
    (hphase : s.phase = .idle ∨ s.phase = .gap ∨ s.phase = .holdoff) (d : Delivered) :
    (s.unaskedCharacter d).LineOk := by
  have hstray : s.countStray.LineOk := h
  unfold State.unaskedCharacter
  split
  · exact State.LineOk.enterHoldoff (s := s.countConflict) h hmode hphase
  · rcases hphase with hp | hp | hp
    · rwa [State.reloadQuiet_of_idle (s := s.countStray) hp]
    · rw [State.reloadQuiet_of_gap (s := s.countStray) hp]
      exact hstray
    · rw [State.reloadQuiet_of_holdoff (s := s.countStray) hp]
      exact hstray

/-- The beginning of an answer, in WAITING (R93, R94). -/
theorem State.LineOk.beginReception {s : State} (h : s.LineOk) (hphase : s.phase = .waiting) :
    s.beginReception.LineOk := by
  obtain ⟨c, hc⟩ := h.exists_context (by simp [hphase]) (by simp [hphase])
  rw [State.beginReception_eq]
  exact .of_receiving (h.released (by simp [hphase])) rfl (h.not_stopped (by simp [hphase])) hc
    fun hin => absurd ((h.no_break (.inr hphase)).symm.trans hin) nofun

/-- An attempt that fails is judged. -/
theorem Context.judged_fail (c : Context) (d : Detail) : (c.fail d).Judged := fun _ => rfl

/-- An attempt whose verdict is recorded is judged. -/
theorem Context.judged_judge (c : Context) (v : Verdict) : (c.judge v).Judged := fun _ => rfl

/-- A character of an answer: it fails the attempt, is kept, or settles it (R94, R95). -/
theorem State.LineOk.answerCharacter {s : State} (h : s.LineOk) (hphase : s.phase = .receiving) (d : Delivered) :
    (s.answerCharacter d).LineOk := by
  obtain ⟨c, hc⟩ := h.exists_context (by simp [hphase]) (by simp [hphase])
  have hrel : s.Released := h.released (by simp [hphase])
  have hmode : s.mode ≠ .stopped := h.not_stopped (by simp [hphase])
  cases hv : c.verdict with
  | some v =>
    rw [State.answerCharacter_of_failed d hc (by simp [hv])]
    exact h
  | none =>
    cases hx : s.reception.failure c d with
    | some x =>
      rw [State.answerCharacter_of_failure hc hv hx]
      exact .of_receiving hrel hphase hmode rfl fun _ => c.judged_fail x
    | none =>
      by_cases hmore : s.reception.taken < 3 ∨ s.reception.taken < s.reception.length + 4
      · rw [State.answerCharacter_of_kept hc hv hx hmore]
        split
        · rw [State.storePayload_frame]
          exact h
        · exact h
      · rw [State.answerCharacter_of_checkB hc hv hx (by omega) (by omega)]
        exact .of_settling hrel rfl hmode rfl (c.judged_judge _)

/-- A late character, in SETTLING (R98). -/
theorem State.LineOk.lateCharacter {s : State} (h : s.LineOk) (hphase : s.phase = .settling) :
    s.lateCharacter.LineOk := by
  obtain ⟨c, hc⟩ := h.exists_context (by simp [hphase]) (by simp [hphase])
  by_cases h0 : c.station = 0
  · rw [State.lateCharacter_of_broadcast hphase hc h0]
    exact h
  · rw [State.lateCharacter_of_station hphase hc h0]
    exact h

/-- The echo check, in CALLING (R90). -/
theorem State.LineOk.echoCheck {s : State} (h : s.LineOk) (hphase : s.phase = .calling) (d : Delivered) :
    (s.echoCheck d).LineOk := by
  obtain ⟨c, hc⟩ := h.exists_context (by simp [hphase]) (by simp [hphase])
  unfold State.echoCheck
  split
  · split
    · exact h.sending hphase nofun hc rfl
    · exact h.collide hphase
  all_goals exact h.collide hphase

/-- A delivered character (R4). -/
theorem State.LineOk.takeCharacter {s : State} (h : s.LineOk) (d : Delivered) : (s.takeCharacter d).LineOk := by
  obtain ⟨hde, -⟩ := id h
  unfold State.takeCharacter
  split
  · rename_i hasserted
    exact h.echoCheck (hde.1 hasserted) d
  · split
    · unfold State.stoppedCharacter
      split <;> exact h
    · rename_i hmode
      split <;> rename_i hphase
      · exact h.unaskedCharacter hmode (.inl hphase) d
      · exact h.unaskedCharacter hmode (.inr (.inl hphase)) d
      · exact h.unaskedCharacter hmode (.inr (.inr hphase)) d
      · exact (h.beginReception hphase).answerCharacter (by rw [State.beginReception_eq]) d
      · exact h.answerCharacter hphase d
      · exact h.lateCharacter hphase
      · exact h

end Sys2Proof.Machine
end

section
/-! SUPPORT. Breaks, timers and commands keep the line in agreement, and so does every step. -/

namespace Sys2Proof.Machine

/-! ## The verdict takes effect (R99, R100) -/

/-- A request that is still in flight after the decision has no cancel pending: one with a cancel pending ends (R54,
R100). -/
theorem State.decideRequest_no_cancel (s : State) (c : Context) (v : Verdict) (lost : Bool) :
    ∀ x ∈ (s.decideRequest c v lost).context, x.cancelPending = false := by
  have hended : ∀ r : ResultRecord, ∀ x ∈ (s.endRequest c r).context, x.cancelPending = false := by
    simp [State.endRequest]
  have hfailure : ∀ outcome : ResultOutcome, ∀ x ∈ (s.decideFailure c outcome lost).context,
      x.cancelPending = false := by
    intro outcome
    unfold State.decideFailure
    split
    · exact hended _
    · split
      · exact hended _
      · rename_i hcancel
        split
        · rintro x ⟨⟩
          simpa using hcancel
        · exact hended _
  have hbusy : ∀ x ∈ (s.decideBusy c).context, x.cancelPending = false := by
    unfold State.decideBusy
    split
    · exact hended _
    · split
      · have hnone : (s.busyReturn c).context = none := rfl
        simp [hnone]
      · exact hended _
  unfold State.decideRequest
  split
  · exact hended _
  · exact hended _
  · exact hended _
  · exact hbusy
  all_goals exact hfailure _

/-- A transaction that a verdict leaves in flight is a retry, with no cancel pending (R99, R101). -/
theorem State.takeVerdict_no_cancel {s : State} {c : Context} (hc : s.context = some c) (hjudged : c.Judged) :
    ∀ x ∈ s.takeVerdict.context, x.cancelPending = false := by
  by_cases h0 : c.station = 0
  · simp [State.takeVerdict_of_broadcast hc h0]
  · obtain ⟨v, hv⟩ := Option.isSome_iff_exists.1 (hjudged h0)
    by_cases ho : c.origin = .request
    · rw [State.takeVerdict_of_request hc h0 ho hv]
      exact State.decideRequest_no_cancel _ _ _ _
    · rw [State.takeVerdict_of_poll hc h0 ho hv]
      obtain ⟨record, placed, -, heq⟩ := (s.setStation c.station (s.entryAfter c v)).decidePoll_cases c v
      simp [heq]

/-! ## Breaks (R106, R107) -/

/-- A break in RECEIVING makes the attempt judged. -/
theorem State.LineOk.of_breakReception {s : State} {c : Context} (hrel : s.Released) (hphase : s.phase = .receiving)
    (hmode : s.mode ≠ .stopped) (hc : s.context = some c) : s.breakReception.LineOk := by
  simp only [State.breakReception, hc]
  split
  · rename_i hv
    exact .of_receiving hrel hphase hmode hc fun _ _ => hv
  · exact .of_receiving hrel hphase hmode rfl fun _ => c.judged_fail _

/-- Outside a call and its answer the receiver may come to be in break. -/
theorem State.LineOk.receive_outside {s : State} (h : s.LineOk) (r : Receiver) (hcalling : s.phase ≠ .calling)
    (hwaiting : s.phase ≠ .waiting) (hreceiving : s.phase ≠ .receiving) : State.LineOk { s with receiver := r } := by
  obtain ⟨hde, htx, hallows, hstopped, hdrain, hcancel, -, hjudged⟩ := h
  exact ⟨hde, htx, hallows, hstopped, hdrain, hcancel, fun _ => ⟨hcalling, hwaiting⟩,
    fun hphase => hjudged (hphase.imp_right fun hin => absurd hin.1 hreceiving)⟩

/-- A break is detected. -/
theorem State.LineOk.detectBreak {s : State} (h : s.LineOk) : s.detectBreak.LineOk := by
  unfold State.detectBreak
  split
  · exact h
  · have hmode : s.phase ≠ .idle → s.mode ≠ .stopped := h.not_stopped
    dsimp only
    split <;> rename_i hphase
    · obtain ⟨c, hc⟩ := h.exists_context (by simp [hphase]) (by simp [hphase])
      exact .of_collide hc (hmode (by simp [hphase]))
    · obtain ⟨c, hc⟩ := h.exists_context (by simp [hphase]) (by simp [hphase])
      rw [State.beginReception_eq]
      exact .of_breakReception (h.released (by simp [hphase])) rfl (hmode (by simp [hphase])) hc
    · obtain ⟨c, hc⟩ := h.exists_context (by simp [hphase]) (by simp [hphase])
      exact .of_breakReception (h.released (by simp [hphase])) hphase (hmode (by simp [hphase])) hc
    all_goals exact h.receive_outside _ (by simp [hphase]) (by simp [hphase]) (by simp [hphase])

/-- A verdict that a break cut short takes effect, and HOLDOFF follows (R107). -/
theorem State.LineOk.holdoff_of_verdict {s : State} {c : Context} (hrel : s.Released) (hmode : s.mode ≠ .stopped)
    (hc : s.context = some c) (hjudged : c.Judged) : s.takeVerdict.enterHoldoff.endDrain.LineOk := by
  obtain ⟨hde, htx, hm, -⟩ := State.line_fields s.takeVerdict_line
  have hrel' : s.takeVerdict.Released := ⟨hde.trans hrel.1, htx.trans hrel.2⟩
  have hmode' : s.takeVerdict.mode ≠ .stopped := fun hstopped => hmode (hm.symm.trans hstopped)
  cases hleft : s.takeVerdict.context with
  | none => exact .endDrain_of_none (s := s.takeVerdict.enterHoldoff) hrel' hleft (.inr ⟨rfl, hmode'⟩)
  | some x =>
    have hgoes : s.takeVerdict.enterHoldoff.endDrain = s.takeVerdict.enterHoldoff :=
      State.endDrain_of_not_drained (.inr (Option.isSome_of_eq_some hleft))
    rw [hgoes]
    exact .of_holdoff hrel' rfl hmode' (fun _ => Option.isSome_of_eq_some hleft) (State.takeVerdict_no_cancel hc hjudged)

/-- A break ends (R107). -/
theorem State.LineOk.endBreak {s : State} (h : s.LineOk) : s.endBreak.LineOk := by
  have hready : State.LineOk { s with receiver := Receiver.ready } := h.receive _ nofun
  have hdecided : s.receiver.lineInBreak = true → s.mode ≠ .stopped → s.phase = .receiving ∨ s.phase = .settling →
      (State.takeVerdict { s with receiver := Receiver.ready }).enterHoldoff.endDrain.LineOk := by
    intro hin hmode hphase
    have hbusy : s.phase ≠ .calling ∧ s.phase ≠ .idle ∧ s.phase ≠ .holdoff := by
      rcases hphase with hp | hp <;> simp [hp]
    obtain ⟨hcalling, hidle, hholdoff⟩ := hbusy
    obtain ⟨c, hc⟩ := h.exists_context hidle hholdoff
    exact .holdoff_of_verdict (hready.released hcalling) hmode hc
      (h.judged hc (hphase.symm.imp_right fun hp => ⟨hp, hin⟩))
  unfold State.endBreak
  split
  · rename_i hin
    dsimp only
    split
    · exact hready
    · rename_i hmode
      split <;> rename_i hphase
      · exact hready.enterHoldoff hmode (.inl hphase)
      · exact hready.enterHoldoff hmode (.inr (.inl hphase))
      · exact hready.enterHoldoff hmode (.inr (.inr hphase))
      · exact hdecided hin hmode (.inl hphase)
      · exact hdecided hin hmode (.inr hphase)
      · exact hready.collide hphase
      · exact hready
  · exact h

/-! ## Timers -/

/-- The answer timer judges the attempt and settles it (R93). -/
theorem State.LineOk.answerTimerEnd {s : State} (h : s.LineOk) : s.answerTimerEnd.LineOk := by
  unfold State.answerTimerEnd
  split
  · rename_i hphase
    obtain ⟨c, hc⟩ := h.exists_context (by simp [hphase]) (by simp [hphase])
    rw [hc]
    exact .of_settling (h.released (by simp [hphase])) rfl (h.not_stopped (by simp [hphase])) rfl
      (c.judged_judge .noAnswer)
  · exact h

/-- The character-gap timer settles an attempt, judged by then (R96, R97). -/
theorem State.LineOk.characterGapEnd {s : State} (h : s.LineOk) : s.characterGapEnd.LineOk := by
  unfold State.characterGapEnd
  split
  · rename_i hends
    obtain ⟨hphase, -⟩ := hends
    obtain ⟨c, hc⟩ := h.exists_context (by simp [hphase]) (by simp [hphase])
    rw [hc]
    refine .of_settling (h.released (by simp [hphase])) rfl (h.not_stopped (by simp [hphase])) rfl ?_
    dsimp only
    split
    · exact fun _ => ‹_›
    · exact c.judged_fail _
  · exact h

/-- The settle timer: a retry goes back to GAP, and an ending returns to IDLE, where it ends a drain or brings a look
(R99, R101, R102). -/
theorem State.LineOk.settleEnd {s : State} (h : s.LineOk) : s.settleEnd.LineOk := by
  unfold State.settleEnd
  split
  · rename_i hsettled
    obtain ⟨hphase, -⟩ := hsettled
    obtain ⟨c, hc⟩ := h.exists_context (by simp [hphase]) (by simp [hphase])
    obtain ⟨hde, htx, hm, -⟩ := State.line_fields s.takeVerdict_line
    obtain ⟨hquiet, hsilent⟩ := h.released (by simp [hphase])
    have hrel : s.takeVerdict.Released := ⟨hde.trans hquiet, htx.trans hsilent⟩
    have hmode : s.takeVerdict.mode ≠ .stopped := fun hstopped =>
      h.not_stopped (by simp [hphase]) (hm.symm.trans hstopped)
    dsimp only
    split
    · rename_i hleft
      obtain ⟨x, hx⟩ := Option.isSome_iff_exists.1 hleft
      exact .of_gap hrel rfl hmode hx (State.takeVerdict_no_cancel hc (h.judged hc (.inl hphase)) x hx)
    · rename_i hleft
      exact State.LineOk.look (.endDrain_of_none hrel (by simpa using hleft) (.inl rfl))
  · exact h

/-- The holdoff timer: GAP with a transaction in flight, IDLE without (R105). -/
theorem State.LineOk.holdoffEnd {s : State} (h : s.LineOk) : s.holdoffEnd.LineOk := by
  unfold State.holdoffEnd
  split
  · rename_i hends
    obtain ⟨hphase, -⟩ := hends
    have hrel : s.Released := h.released (by simp [hphase])
    split
    · rename_i hflight
      obtain ⟨c, hc⟩ := Option.isSome_iff_exists.1 hflight
      exact .of_gap hrel rfl (h.not_stopped (by simp [hphase])) hc (h.no_cancel (.inr (.inr hphase)) c hc)
    · rename_i hnone
      have hc : s.context = none := by simpa using hnone
      exact State.LineOk.look (.of_idle hrel rfl hc (h.not_draining hc))
  · exact h

/-! ## Commands and resets -/

/-- START lets a STOPPED part run and look (R143). -/
theorem State.LineOk.start {s : State} (h : s.LineOk) (hmode : s.mode = .stopped) :
    ({ s with mode := .running } : State).look.LineOk := by
  obtain ⟨-, -, -, hstopped, -⟩ := id h
  have hphase : s.phase = .idle := hstopped hmode
  exact State.LineOk.look (.of_idle (h.released (by simp [hphase])) hphase (h.context_of_idle hphase) nofun)

/-- The mode becomes STOPPED with nothing in flight (R142). -/
theorem State.LineOk.becomeStopped {s : State} (hrel : s.Released) (hc : s.context = none) : s.becomeStopped.LineOk :=
  .of_idle hrel rfl hc nofun

/-- STOP (R144). -/
theorem State.LineOk.stopLine {s : State} (h : s.LineOk) : s.stopLine.LineOk := by
  have hstops : s.context = none → s.becomeStopped.LineOk := fun hc => by
    refine .becomeStopped (h.released ?_) hc
    rcases h.phase_of_idle hc with hphase | hphase <;> simp [hphase]
  unfold State.stopLine
  split
  · exact h
  · rename_i hmode
    split
    · rename_i hflight
      obtain ⟨hde, htx, hallows, -, -, hrest⟩ := h
      exact ⟨hde, htx, hallows, nofun, fun _ => hflight, hrest⟩
    · rename_i hnone
      exact hstops (by simpa using hnone)
  · split
    · exact h
    · rename_i hnone
      exact hstops (by simpa using hnone)

/-- ABORT releases the line and stops it (R146). -/
theorem State.LineOk.abort (s : State) : (abortWork s).state.LineOk := by
  cases hc : s.context with
  | none =>
    rw [abortWork_of_idle hc]
    exact .becomeStopped (s := s.releaseLine) ⟨rfl, rfl⟩ hc
  | some c =>
    rw [abortWork_of_flight hc]
    exact .becomeStopped (State.closeEarly_released (s := s.releaseLine) ⟨rfl, rfl⟩ ..) (State.closeEarly_context ..)

/-- CANCEL in GAP or HOLDOFF (R52). -/
theorem State.LineOk.cancelWaiting {s : State} {c : Context} (h : s.LineOk)
    (hphase : s.phase = .gap ∨ s.phase = .holdoff) : (s.cancelWaiting c).LineOk := by
  have hbusy : s.phase ≠ .calling ∧ s.phase ≠ .idle := by rcases hphase with hp | hp <;> simp [hp]
  obtain ⟨hcalling, hidle⟩ := hbusy
  obtain ⟨-, -, hm, hp, hnone, -⟩ := State.line_fields (s.closeEarly_line c .cancelled false true)
  have hrel := State.closeEarly_released (h.released hcalling) c .cancelled false true
  unfold State.cancelWaiting
  dsimp only
  split
  · exact State.LineOk.look (.endDrain_of_none (s := (s.closeEarly c .cancelled false true).enterIdle) hrel hnone
      (.inl rfl))
  · rename_i hgap
    exact .endDrain_of_none hrel hnone
      (.inr ⟨hp.trans (hphase.resolve_left hgap), fun hstopped => h.not_stopped hidle (hm.symm.trans hstopped)⟩)

/-- CANCEL of a request whose call or answer is on the line (R53). -/
theorem State.LineOk.cancelFlying {s : State} {c : Context} (h : s.LineOk) (hc : s.context = some c)
    (hphase : ¬ (s.phase = .gap ∨ s.phase = .holdoff)) :
    State.LineOk { s with context := some { c with cancelPending := true } } :=
  h.replace hc (fun hp => absurd hp hphase) id

/-! ## Every act -/

/-- Every act on the line. -/
theorem State.LineOk.acts {i : Instr} {s t : State} (h : s.LineOk) (hact : State.LineActs i s t) : t.LineOk := by
  cases hact with
  | nothing => exact h
  | look => exact h.look
  | cancelWaiting c hc hphase => exact h.cancelWaiting hphase
  | cancelFlying c hc hphase => exact h.cancelFlying hc hphase
  | start hmode => exact h.start hmode
  | stop => exact h.stopLine
  | abort => exact State.LineOk.abort s
  | setLine config hmode => exact h
  | softReset => exact .of_idle ⟨rfl, rfl⟩ rfl rfl nofun
  | hardReset held hi => exact .of_idle ⟨rfl, rfl⟩ rfl rfl nofun
  | receive r hbreak => exact h.receive r hbreak.symm.trans
  | beginReception r hbreak hphase => exact (h.receive r hbreak.symm.trans).beginReception hphase
  | takeCharacter r d hbreak => exact (h.receive r hbreak.symm.trans).takeCharacter d
  | detectBreak => exact h.detectBreak
  | endBreak => exact h.endBreak
  | echoMissing htx => exact h.collide (h.calling_of_tx htx)
  | characterSent place htx => exact h.sendNext (h.calling_of_tx htx) place
  | telegramGapEnd => exact h.telegramGapEnd
  | deLeadEnd => exact h.deLeadEnd
  | deTrailEnd => exact h.deTrailEnd
  | answerTimerEnd => exact h.answerTimerEnd
  | characterGapEnd => exact h.characterGapEnd
  | settleEnd => exact h.settleEnd
  | holdoffEnd => exact h.holdoffEnd

/-- Every row keeps the line in agreement. -/
theorem exec_keeps_lineOk {i : Instr} {s t : State} (h : s.LineOk) (hexec : exec i s = .next t) : t.LineOk := by
  obtain ⟨s', t', hfirst, hact, hlast⟩ := exec_lineReaches hexec
  exact ((h.of_line hfirst).acts hact).of_line hlast

/-- Settles O57: a step is a row or nothing, and each act that a row makes on the line keeps the invariant. -/
theorem stepKeepsLine : Obligations.StepKeepsLine := by
  intro s t h hstep
  unfold step at hstep
  split at hstep
  · cases hstep
    exact h
  · rename_i rest _
    exact exec_keeps_lineOk (s := { s with pending := rest }) h hstep

end Sys2Proof.Machine
end

section
/-! SUPPORT. The settings of the line and their commands, the timers of an answer, breaks, and the closing of a
transaction field by field. -/

namespace Sys2Proof.Machine

/-! ## SET_LINE and SET_LIMITS (R109, R110, R148) -/

/-- The ranges of SET_LINE's arguments (R109, R110). -/
theorem lineArgumentsOk_iff (a : Args) :
    lineArgumentsOk a = true ↔
      a.arg0.toNat ≤ 7 ∧ a.arg1.toNat ≤ 2 ∧ 2 ≤ a.arg2.toNat ∧ (1 ≤ a.arg3.toNat ∧ a.arg3.toNat ≤ 15) ∧
      (1 ≤ a.arg4.toNat ∧ a.arg4.toNat ≤ 15) ∧ a.arg5.toNat ≤ 7 ∧ a.arg6.toNat ≤ 7 ∧ 8 ≤ a.arg7.toNat := by
  simp only [lineArgumentsOk, Bool.and_eq_true, decide_eq_true_eq, and_assoc]

/-- The ranges of SET_LIMITS's arguments (R148). -/
theorem limitArgumentsOk_iff (a : Args) :
    limitArgumentsOk a = true ↔
      (1 ≤ a.arg0.toNat ∧ a.arg0.toNat ≤ 15) ∧ (1 ≤ a.arg1.toNat ∧ a.arg1.toNat ≤ 15) ∧ 1 ≤ a.arg2.toNat ∧
      1 ≤ a.arg3.toNat ∧ (1 ≤ a.arg4.toNat ∧ a.arg4.toNat ≤ 24) := by
  simp only [limitArgumentsOk, Bool.and_eq_true, decide_eq_true_eq, and_assoc]

/-- The parity of an argument within its range, by its code (R109). -/
theorem Parity.ofArg_eq {x : Byte} (h : x.toNat ≤ 2) :
    Parity.ofArg x.toNat = if x = 0 then .none else if x = 1 then .even else .odd := by
  have hcodes : x = 0 ∨ x = 1 ∨ x = 2 := by bv_omega
  rcases hcodes with rfl | rfl | rfl <;> rfl

/-- SET_LINE with an argument out of its range is refused in any mode (R110). -/
theorem setLineWork_of_bad {s : State} (h : ¬ lineArgumentsOk s.latch = true) :
    setLineWork s = s.refuse .badArgument :=
  if_pos (by simp [h])

/-- SET_LINE is refused outside STOPPED (R110). -/
theorem setLineWork_of_running {s : State} (h : lineArgumentsOk s.latch = true) (hmode : s.mode ≠ .stopped) :
    setLineWork s = s.refuse .wrongMode := by
  rw [setLineWork, if_neg (by simp [h]), if_pos hmode]

/-- SET_LINE in STOPPED writes the line configuration (R110). -/
theorem setLineWork_of_stopped {s : State} (h : lineArgumentsOk s.latch = true) (hmode : s.mode = .stopped) :
    setLineWork s =
      { state := { s with lineConfig := LineConfig.ofArgs s.latch }, code := .ok, replies := Replies.zero } := by
  rw [setLineWork, if_neg (by simp [h]), if_neg (not_not.2 hmode)]

/-- SET_LIMITS with an argument out of its range is refused (R148). -/
theorem setLimitsWork_of_bad {s : State} (h : ¬ limitArgumentsOk s.latch = true) :
    setLimitsWork s = s.refuse .badArgument :=
  if_pos (by simp [h])

/-- SET_LIMITS writes the limits (R148). -/
theorem setLimitsWork_of_ok {s : State} (h : limitArgumentsOk s.latch = true) :
    setLimitsWork s =
      { state := { s with limits := Limits.ofArgs s.latch }, code := .ok, replies := Replies.zero } :=
  if_neg (by simp [h])

/-- Settles O22: the ranges, then the mode of SET_LINE, and each accepted command's one change. -/
theorem settingsCommands : Obligations.SettingsCommands := by
  intro s lineRanges limitRanges htakes hline hlimits
  rw [← lineArgumentsOk_iff] at hline
  rw [← limitArgumentsOk_iff] at hlimits
  have hsetLine : exec .setLine s = .next (s.hostCommand 0x09 setLineWork) := rfl
  have hsetLimits : exec .setLimits s = .next (s.hostCommand 0x0B setLimitsWork) := rfl
  rw [hsetLine, hsetLimits, State.hostCommand_of_takes htakes, State.hostCommand_of_takes htakes]
  refine ⟨fun hbad => ?_, fun hok hmode => ?_, fun hok hmode => ?_, fun hbad => ?_, fun hok => ?_⟩
  · rw [setLineWork_of_bad (s := s.handedOver 0x09) (mt hline.2 hbad)]
    rfl
  · rw [setLineWork_of_running (s := s.handedOver 0x09) (hline.1 hok) hmode]
    rfl
  · obtain ⟨-, hparity, -⟩ := (lineArgumentsOk_iff _).1 (hline.1 hok)
    rw [setLineWork_of_stopped (s := s.handedOver 0x09) (hline.1 hok) hmode, ← Parity.ofArg_eq hparity]
    rfl
  · rw [setLimitsWork_of_bad (s := s.handedOver 0x0B) (mt hlimits.2 hbad)]
    rfl
  · rw [setLimitsWork_of_ok (s := s.handedOver 0x0B) (hlimits.1 hok)]
    rfl

/-! ## GET_LINE (R111) -/

/-- GET_LINE is refused for a page above 2, a flag above 1, and a clearing of another page than 2 (R111). -/
theorem getLineWork_of_bad {s : State}
    (h : 2 < s.latch.arg0.toNat ∨ 1 < s.latch.arg1.toNat ∨ (s.latch.arg1 = 1 ∧ s.latch.arg0 ≠ 2)) :
    getLineWork s = s.refuse .badArgument := by
  refine if_pos (h.imp_right (Or.imp_right fun hclear => ?_))
  obtain ⟨hflag, hpage⟩ := hclear
  exact ⟨beq_iff_eq.2 hflag, fun h2 => hpage (BitVec.eq_of_toNat_eq h2)⟩

/-- GET_LINE without its clear flag reads a page (R111). -/
theorem getLineWork_of_read {s : State} {page : Nat} (hpage : s.latch.arg0.toNat = page) (hle : page ≤ 2)
    (hflag : s.latch.arg1 = 0) : getLineWork s = { state := s, code := .ok, replies := s.linePage page } := by
  subst hpage
  have hread : ¬ (2 < s.latch.arg0.toNat ∨ 1 < s.latch.arg1.toNat ∨
      (s.latch.arg1 == 1) = true ∧ s.latch.arg0.toNat ≠ 2) := by
    simp [hflag, hle]
  rw [getLineWork, if_neg hread, hflag]
  rfl

/-- Page 0 shows the bit rate, the parity by its code, the answer timeout and the character gap (R111). -/
theorem State.linePage_zero (s : State) :
    s.linePage 0 =
      Replies.of s.lineConfig.bitRate s.lineConfig.parity.code s.lineConfig.answerTimeout s.lineConfig.characterGap :=
  rfl

/-- GET_LINE with its clear flag reads the line counters, then clears them (R111). -/
theorem getLineWork_of_clear {s : State} (hpage : s.latch.arg0 = 2) (hflag : s.latch.arg1 = 1) :
    getLineWork s =
      { state := { s with strayCharacters := 0, conflicts := 0, breaks := 0 }, code := .ok
        replies := s.linePage 2 } := by
  rw [getLineWork, hpage, hflag]
  rfl

/-- Settles O24: the refusal, the three pages, and the clearing of the counters. -/
theorem getLineRule : Obligations.GetLineRule := by
  rintro s counters htakes rfl
  have hexec : exec .getLine s = .next (s.hostCommand 0x0A getLineWork) := rfl
  rw [hexec, State.hostCommand_of_takes htakes]
  have hread : ∀ page : Nat, s.args.arg0.toNat = page → page ≤ 2 → s.args.arg1 = 0 → getLineWork (s.handedOver 0x0A) =
      { state := s.handedOver 0x0A, code := .ok, replies := s.linePage page } :=
    fun _ => getLineWork_of_read (s := s.handedOver 0x0A)
  refine ⟨fun hbad => ?_, fun hpage hflag => ?_, fun hpage hflag => ?_, fun hpage hflag => ?_, fun hpage hflag => ?_⟩
  · rw [getLineWork_of_bad (s := s.handedOver 0x0A) hbad]
    rfl
  · rw [hread 0 (by rw [hpage]; rfl) (by omega) hflag, State.linePage_zero]
    cases s.lineConfig.parity <;> rfl
  · rw [hread 1 (by rw [hpage]; rfl) (by omega) hflag]
    rfl
  · rw [hread 2 (by rw [hpage]; rfl) (by omega) hflag]
    rfl
  · rw [getLineWork_of_clear (s := s.handedOver 0x0A) hpage hflag]
    rfl

/-! ## The timers of an answer (R93, R96, R97) -/

/-- A timer of quiet runs outside a character, with no space held back, on a line that is not in break (R87, R106). -/
theorem State.lineQuiet_iff (s : State) :
    s.lineQuiet = true ↔
      s.receiver.inCharacter = none ∧ s.receiver.heldSpace = false ∧ s.receiver.lineInBreak = false := by
  simp [State.lineQuiet, and_assoc]

/-- The answer timer makes the attempt NO_ANSWER, SILENT (R93). -/
theorem State.answerTimerEnd_of_waiting {s : State} {c : Context} (hc : s.context = some c) (hphase : s.phase = .waiting) :
    s.answerTimerEnd = State.enterSettling { s with context := some (c.judge .noAnswer) } := by
  rw [State.answerTimerEnd, if_pos hphase, hc]
  rfl

/-- The character-gap timer makes an answer that has not yet failed TRUNCATED (R96). -/
theorem State.characterGapEnd_of_unjudged {s : State} {c : Context} (hc : s.context = some c)
    (hphase : s.phase = .receiving) (htimer : s.timer.kind = .characterGap) (hquiet : s.lineQuiet = true)
    (hv : c.verdict = none) :
    s.characterGapEnd = State.enterSettling { s with context := some (c.fail .truncated) } := by
  rw [State.characterGapEnd, if_pos ⟨hphase, htimer, hquiet⟩, hc, Option.map_some, if_neg (by simp [hv])]

/-- The character-gap timer lets a failed answer settle (R97). -/
theorem State.characterGapEnd_of_judged {s : State} {c : Context} (hc : s.context = some c)
    (hphase : s.phase = .receiving) (htimer : s.timer.kind = .characterGap) (hquiet : s.lineQuiet = true)
    (hv : c.verdict.isSome = true) : s.characterGapEnd = s.enterSettling := by
  rw [State.characterGapEnd, if_pos ⟨hphase, htimer, hquiet⟩, hc, Option.map_some, if_pos hv, ← hc]

/-- In break the character-gap timer is held (log entry 26). -/
theorem State.characterGapEnd_of_break {s : State} (hin : s.receiver.lineInBreak = true) : s.characterGapEnd = s := by
  refine if_neg fun hends => ?_
  obtain ⟨-, -, hquiet⟩ := hends
  obtain ⟨-, -, hout⟩ := s.lineQuiet_iff.1 hquiet
  exact absurd (hin.symm.trans hout) nofun

/-- Settles O44: each timer by the phase, and the character-gap timer by whether the attempt is judged. -/
theorem answerTimersRule : Obligations.AnswerTimersRule := by
  rintro s c settle hs hc rfl
  have hanswer : exec .answerTimerExpiry s = .next s.answerTimerEnd := exec_of_live rfl hs
  have hgap : exec .characterGapExpiry s = .next s.characterGapEnd := exec_of_live rfl hs
  rw [hanswer, hgap]
  refine ⟨s.lineQuiet_iff, fun _ hin => ?_, fun hphase => ?_, fun hphase htimer hquiet hv => ?_,
    fun hphase htimer hquiet hv => ?_⟩
  · rw [State.characterGapEnd_of_break hin]
  · rw [State.answerTimerEnd_of_waiting hc hphase]
    rfl
  · rw [State.characterGapEnd_of_unjudged hc hphase htimer hquiet hv]
    rfl
  · rw [State.characterGapEnd_of_judged hc hphase htimer hquiet hv]
    rfl

/-! ## Breaks (R106, R107, R108) -/

/-- The part as a break is detected: BREAK and the breaks counter are raised, and the line is in break (R106). -/
def State.broken (s : State) : State :=
  { s with
    breaks := satInc Config.lineCounterCap s.breaks
    receiver := { inCharacter := none, heldSpace := false, awaitMark := true, lineInBreak := true }
    events := s.events.raise .lineBreak }

/-- A break is detected once (R106). -/
theorem State.detectBreak_of_break {s : State} (h : s.receiver.lineInBreak = true) : s.detectBreak = s :=
  if_pos h

/-- A break outside a call and its answer only stands (R106). -/
theorem State.detectBreak_of_outside {s : State} (h : s.receiver.lineInBreak = false)
    (hphase : s.phase = .idle ∨ s.phase = .gap ∨ s.phase = .settling ∨ s.phase = .holdoff) :
    s.detectBreak = s.broken := by
  have hne : s.phase ≠ .calling ∧ s.phase ≠ .waiting ∧ s.phase ≠ .receiving := by
    rcases hphase with hp | hp | hp | hp <;> simp [hp]
  obtain ⟨hcalling, hwaiting, hreceiving⟩ := hne
  rw [State.detectBreak, if_neg (by simp [h])]
  dsimp only
  split
  · exact absurd ‹_› hcalling
  · exact absurd ‹_› hwaiting
  · exact absurd ‹_› hreceiving
  all_goals rfl

/-- A break in RECEIVING meets the answer (R107). -/
theorem State.detectBreak_of_receiving {s : State} (h : s.receiver.lineInBreak = false) (hphase : s.phase = .receiving) :
    s.detectBreak = s.broken.breakReception := by
  rw [State.detectBreak, if_neg (by simp [h])]
  dsimp only
  split
  case h_3 => rfl
  all_goals
    rename_i hp
    exact absurd (hphase.symm.trans hp) nofun

/-- A failed attempt takes no notice of a break (R107). -/
theorem State.breakReception_of_judged {s : State} {c : Context} (hc : s.context = some c)
    (hv : c.verdict.isSome = true) : s.breakReception = s := by
  simp only [State.breakReception, hc, if_pos hv]

/-- An attempt that has not yet failed is BAD_ANSWER, BREAK (R107). -/
theorem State.breakReception_of_unjudged {s : State} {c : Context} (hc : s.context = some c) (hv : c.verdict = none) :
    s.breakReception = { s with context := some (c.fail .lineBreak) } := by
  simp only [State.breakReception, hc, if_neg (by simp [hv] : ¬ c.verdict.isSome = true)]

/-- In STOPPED the end of a break readies the receiver (R108). -/
theorem State.endBreak_of_stopped {s : State} (h : s.receiver.lineInBreak = true) (hmode : s.mode = .stopped) :
    s.endBreak = { s with receiver := Receiver.ready } := by
  rw [State.endBreak, if_pos h, if_pos hmode]

/-- Outside a call and its answer the end of a break enters HOLDOFF (R107). -/
theorem State.endBreak_of_outside {s : State} (h : s.receiver.lineInBreak = true) (hmode : s.mode ≠ .stopped)
    (hphase : s.phase = .idle ∨ s.phase = .gap ∨ s.phase = .holdoff) :
    s.endBreak = State.enterHoldoff { s with receiver := Receiver.ready } := by
  rw [State.endBreak, if_pos h, if_neg hmode]
  rcases hphase with hp | hp | hp <;> rw [hp]

/-- A verdict that a break cut short takes effect at the return to mark (R107). -/
theorem State.endBreak_of_answer {s : State} (h : s.receiver.lineInBreak = true) (hmode : s.mode ≠ .stopped)
    (hphase : s.phase = .receiving ∨ s.phase = .settling) :
    s.endBreak = (State.takeVerdict { s with receiver := Receiver.ready }).enterHoldoff.endDrain := by
  rw [State.endBreak, if_pos h, if_neg hmode]
  rcases hphase with hp | hp <;> rw [hp]

/-- Settles O45: the detection and the end of a break, by the mode, the phase and the judgement. -/
theorem breakRule : Obligations.BreakRule := by
  intro s broken marked hs hbroken hmarked
  have hdetect : exec .breakDetected s = .next s.detectBreak := exec_of_live rfl hs
  have hend : exec .breakEnd s = .next s.endBreak := exec_of_live rfl hs
  have hstands : s.broken = broken := hbroken.symm
  rw [hdetect, hend, hmarked]
  refine ⟨fun hin => ?_, fun hout => ⟨fun hphase => ?_, fun c hphase hc => ⟨fun hv => ?_, fun hv => ?_⟩⟩,
    fun hin => ⟨fun hmode => ?_, fun hmode hphase => ?_, fun hmode hphase => ?_⟩⟩
  · rw [State.detectBreak_of_break hin]
  · rw [State.detectBreak_of_outside hout hphase, hstands]
  · rw [State.detectBreak_of_receiving hout hphase, State.breakReception_of_judged (s := s.broken) hc hv, hstands]
  · rw [State.detectBreak_of_receiving hout hphase, State.breakReception_of_unjudged (s := s.broken) hc hv, hstands]
    rfl
  · rw [State.endBreak_of_stopped hin hmode]
  · rw [State.endBreak_of_outside hin hmode hphase]
    rfl
  · rw [State.endBreak_of_answer hin hmode hphase]

/-! ## The closing of a transaction (R102) -/

/-- The slot of a closing, field by field: the record is posted into it, or it is released (R131, R132). -/
theorem State.settleSlot_eq (s : State) (record : Option ResultRecord) :
    s.settleSlot record = { s with
      results := s.results ++ (record.map fun r => { r with stamp := s.timeCounter }).toList
      events := { s.events with
        resultsHigh := s.events.resultsHigh ||
          (record.isSome && decide (s.results.length + 1 = s.limits.watermark)) }
      reserved := false } := by
  cases record with
  | none => simp [State.settleSlot]
  | some r => exact State.post_eq { s with reserved := false } r

/-- The buffers of a closing, field by field: the out buffer goes to FREE, then the answer buffer, unless it is attached
to the record (R102, R114). -/
theorem State.disposeBuffers_eq {s : State} {c : Context} {attached : Bool}
    (hout : ∀ b ∈ c.outBuffer, s.owner b = some .line) (hanswer : ∀ b ∈ c.answerBuffer, s.owner b = some .line)
    (hne : ∀ b ∈ c.outBuffer, ∀ b' ∈ c.answerBuffer, b ≠ b') :
    s.disposeBuffers c attached = { s with
      owners := c.answerBuffer.elim (c.outBuffer.elim s.owners (s.owners.set · .free))
        ((c.outBuffer.elim s.owners (s.owners.set · .free)).set · (if attached then .result else .free))
      freeList := s.freeList ++ c.outBuffer.toList ++ (if attached then [] else c.answerBuffer.toList) } := by
  have hkept : ∀ b ∈ c.answerBuffer, (s.changeOwner? c.outBuffer .line .free).owner b = some .line := fun b hb => by
    rw [State.owner_changeOwnerOpt_other _ _ fun b' hb' => hne b' hb' b hb, hanswer b hb]
  rw [State.disposeBuffers, State.changeOwnerOpt_eq _ hkept, State.changeOwnerOpt_eq .free hout]
  cases attached <;> simp

/-- Settles O49: the slot, the buffers and the synced flag, each by its own equation. -/
theorem closingOfTransaction : Obligations.ClosingOfTransaction := by
  intro s c record clear attached hout hanswer hne hattached
  have hbuffer : (record.bind ResultRecord.buffer).isSome = attached := by
    rw [Bool.eq_iff_iff, hattached]
    cases record <;> simp
  have howner : ∀ b : Nat, (s.settleSlot record).owner b = s.owner b := fun b => by
    rw [State.settleSlot_eq]
    rfl
  rw [State.close, hbuffer, State.disposeBuffers_eq (s := s.settleSlot record) (by simpa only [howner] using hout)
    (by simpa only [howner] using hanswer) hne, State.settleSlot_eq]
  cases clear with
  | false => rfl
  | true =>
    simp only [if_true, State.clearSynced]
    rw [State.setStation_eq]
    cases c.station <;> rfl

end Sys2Proof.Machine
end

section
/-! SUPPORT. What the registers show: fields of a byte by their digits, the TAKEN registers, STATUS, the event registers
and IRQ#, and the register map. -/

namespace Sys2Proof.Machine

/-! ## Fields of a byte -/

/-- A byte-wide register shows a count up to 255 whole. -/
theorem byteOf_toNat_of_le {n : Nat} (h : n ≤ 255) : (byteOf n).toNat = n := by
  rw [byteOf, BitVec.toNat_ofNat]
  omega

/-- A bit is at most 1 as a number. -/
theorem bitOf_le (b : Bool) : bitOf b ≤ 1 := by
  cases b <;> decide

/-- A bit of a byte is the digit of its value. -/
theorem getLsbD_of_digit {x : Byte} {i : Nat} {b : Bool} (h : x.toNat / 2 ^ i % 2 = bitOf b) : x.getLsbD i = b := by
  rw [toNat_div_two_pow_mod_two] at h
  revert h
  cases x.getLsbD i <;> cases b <;> decide

/-- The low byte of a time counter value (R152, R177). -/
theorem timeLow_toNat (t : Time) : (timeLow t).toNat = t.toNat % 256 :=
  BitVec.toNat_setWidth 8 t

/-- The high byte of a time counter value (R152, R177). -/
theorem timeHigh_toNat (t : Time) : (timeHigh t).toNat = t.toNat / 256 := by
  rw [timeHigh, BitVec.toNat_setWidth, BitVec.toNat_ushiftRight, Nat.shiftRight_eq_div_pow]
  have hlt := t.isLt
  omega

/-- A byte in common with another has a bit in common with it. -/
theorem and_ne_zero_iff (x y : Byte) : x &&& y ≠ 0 ↔ ∃ i < 8, x.getLsbD i = true ∧ y.getLsbD i = true := by
  constructor
  · intro hne
    by_contra hno
    refine hne (BitVec.eq_of_getLsbD_eq fun i hi => ?_)
    have hbit : ¬(x.getLsbD i = true ∧ y.getLsbD i = true) := fun hboth => hno ⟨i, hi, hboth⟩
    rw [← Bool.and_eq_true, Bool.not_eq_true] at hbit
    exact (BitVec.getLsbD_and).trans (hbit.trans BitVec.getLsbD_zero.symm)
  · rintro ⟨i, -, hx, hy⟩ hzero
    have hbit := congrArg (·.getLsbD i) hzero
    simp [hx, hy] at hbit

/-! ## The TAKEN registers (R127, R128, R177) -/

/-- The kind and the origin of a record stand in the two halves of one byte (R177). -/
theorem Taken.kinds_toNat (r : ResultRecord) : (Taken.ofRecord r).kinds.toNat = r.kind.code + 16 * r.origin.code := by
  refine byteOf_toNat_of_le ?_
  cases r.kind <;> cases r.origin <;> decide

/-- The station and two flags of a record stand in one byte (R177). -/
theorem Taken.station_toNat {r : ResultRecord} (h : r.station ≤ 31) :
    (Taken.ofRecord r).station.toNat = r.station + 32 * bitOf r.cancelRequested + 64 * bitOf r.stationLost := by
  have hcancel := bitOf_le r.cancelRequested
  have hlost := bitOf_le r.stationLost
  exact byteOf_toNat_of_le (by omega)

/-- The attempts and the collisions of a record stand in the two halves of one byte (R177). -/
theorem Taken.counts_toNat {r : ResultRecord} (hattempts : r.attempts ≤ 8) (hcollisions : r.collisions ≤ 4) :
    (Taken.ofRecord r).counts.toNat = r.attempts + 16 * r.collisions :=
  byteOf_toNat_of_le (by omega)

/-- A buffer index shows as itself, and none as 0xFF (R177). -/
theorem showBuffer_toNat {buffer : Option Nat} (h : ∀ b ∈ buffer, b ≤ 63) :
    (showBuffer buffer).toNat = buffer.getD 255 := by
  cases buffer with
  | none => rfl
  | some b => exact byteOf_toNat_of_le ((h b rfl).trans (by decide))

/-- Settles O17: each register of a record by its fields, each field by its code. -/
theorem takenShowsRecord : Obligations.TakenShowsRecord := by
  rintro r t rfl hticket hstation hattempts hcollisions hlength hbuffer
  have hkinds := Taken.kinds_toNat r
  have hstations := Taken.station_toNat hstation
  have hcounts := Taken.counts_toNat hattempts hcollisions
  have hcancel := bitOf_le r.cancelRequested
  have hlost := bitOf_le r.stationLost
  have hkind : r.kind.code < 8 := by cases r.kind <;> decide
  refine ⟨byteOf_toNat_of_le hticket, ?_, getLsbD_of_digit (b := false) ?_, ?_, ?_, getLsbD_of_digit ?_,
    getLsbD_of_digit ?_, getLsbD_of_digit (b := false) ?_, ?_, ?_, ?_, ?_, ?_, showBuffer_toNat hbuffer,
    byteOf_toNat_of_le (by omega), rfl, timeLow_toNat _, timeHigh_toNat _⟩
  · have hfield : (Taken.ofRecord r).kinds.toNat % 8 = r.kind.code := by omega
    rw [hfield]
    cases r.kind <;> rfl
  · rw [hkinds, bitOf_false]
    omega
  · have hfield : (Taken.ofRecord r).kinds.toNat / 16 = r.origin.code := by omega
    rw [hfield]
    cases r.origin <;> rfl
  · omega
  · omega
  · omega
  · rw [bitOf_false]
    omega
  · rw [Taken.ofRecord]
    cases r.outcome <;> rfl
  · rw [Taken.ofRecord]
    cases r.answerKind with
    | none => rfl
    | some k => cases k <;> rfl
  · omega
  · omega
  · rw [Taken.ofRecord]
    cases r.detail with
    | none => rfl
    | some d => cases d <;> rfl

/-! ## STATUS (R169) -/

/-- The five fields of STATUS in one byte (R169). -/
theorem State.status_toNat (s : State) :
    s.status.toNat = s.mode.code + 4 * s.phase.code + 32 * bitOf s.unit.busy + 64 * bitOf s.receiver.lineInBreak +
      128 * bitOf s.stallActive := by
  have hmode : s.mode.code < 4 := by cases s.mode <;> decide
  have hphase : s.phase.code < 8 := by cases s.phase <;> decide
  have hbusy := bitOf_le s.unit.busy
  have hbreak := bitOf_le s.receiver.lineInBreak
  have hstall := bitOf_le s.stallActive
  exact byteOf_toNat_of_le (by omega)

/-- The Command Unit is BUSY unless it is READY (R170). -/
theorem CommandUnit.busy_iff (u : CommandUnit) : u.busy = true ↔ u ≠ .ready := by
  cases u <;> simp [CommandUnit.busy]

/-- STATUS shows the mode, the phase, BUSY, the line in break and the stall, each at its place (R169). -/
theorem State.status_fields (s : State) :
    s.status.toNat % 4 = s.mode.code ∧ s.status.toNat / 4 % 8 = s.phase.code ∧
      s.status.getLsbD 5 = s.unit.busy ∧ s.status.getLsbD 6 = s.receiver.lineInBreak ∧
      s.status.getLsbD 7 = s.stallActive := by
  have hmode : s.mode.code < 4 := by cases s.mode <;> decide
  have hphase : s.phase.code < 8 := by cases s.phase <;> decide
  have hbusy := bitOf_le s.unit.busy
  have hbreak := bitOf_le s.receiver.lineInBreak
  have hstall := bitOf_le s.stallActive
  have hstatus := s.status_toNat
  exact ⟨by omega, by omega, getLsbD_of_digit (by omega), getLsbD_of_digit (by omega), getLsbD_of_digit (by omega)⟩

/-! ## EVENTS_A, EVENTS_B and IRQ# (R156, R159, R164) -/

/-- A bit of EVENTS_A is the flag of its place (R156). -/
theorem State.eventsA_getLsbD (s : State) (i : Nat) :
    s.eventsA.getLsbD i =
      (s.flags.commandDone && decide (0 = i) || s.flags.commandOverrun && decide (1 = i) ||
        s.resultReady && decide (2 = i) || s.flags.resultsHigh && decide (3 = i) || s.stationChange && decide (4 = i) ||
        s.flags.requestSpace && decide (5 = i) || s.flags.poolEmpty && decide (6 = i) ||
        s.flags.stall && decide (7 = i)) := by
  simp (disch := decide) only [State.eventsA, BitVec.getLsbD_or, flagBit_getLsbD]

/-- A bit of EVENTS_B is the flag of its place (R156). -/
theorem State.eventsB_getLsbD (s : State) (i : Nat) :
    s.eventsB.getLsbD i =
      (s.flags.lineStopped && decide (0 = i) || s.flags.conflict && decide (1 = i) ||
        s.flags.lineBreak && decide (2 = i) || s.flags.accessFault && decide (3 = i)) := by
  simp (disch := decide) only [State.eventsB, BitVec.getLsbD_or, flagBit_getLsbD]

/-- Each latched flag stands at its place in its register (R156). -/
theorem State.events_getLsbD_place (s : State) (f : LatchedFlag) :
    (if f.place.1 = .a then s.eventsA else s.eventsB).getLsbD f.place.2 = s.flags.get f := by
  cases f <;> simp only [LatchedFlag.place, reduceCtorEq, if_true, if_false, State.eventsA_getLsbD, State.eventsB_getLsbD,
    Events.get] <;> simp

/-- RESULT_READY stands at bit 2 of EVENTS_A (R159). -/
theorem State.eventsA_getLsbD_two (s : State) : s.eventsA.getLsbD 2 = true ↔ s.results ≠ [] := by
  rw [State.eventsA_getLsbD]
  simp [State.resultReady]

/-- A flag below bit 4 is a number below 16. -/
theorem flagBit_lt {place : Nat} (h : place < 4) (flag : Bool) : (flagBit place flag).toNat < 2 ^ 4 := by
  interval_cases place <;> cases flag <;> decide

/-- Bits 4..7 of EVENTS_B are 0 (R156). -/
theorem State.eventsB_lt (s : State) : s.eventsB.toNat < 16 := by
  simp only [State.eventsB, BitVec.toNat_or]
  exact Nat.or_lt_two_pow
    (Nat.or_lt_two_pow (Nat.or_lt_two_pow (flagBit_lt (by decide) _) (flagBit_lt (by decide) _))
      (flagBit_lt (by decide) _))
    (flagBit_lt (by decide) _)

/-- IRQ# is low exactly while some flag is both set and enabled (R164). -/
theorem State.irqLow_iff (s : State) :
    s.irqLow = true ↔
      ∃ i < 8, (s.eventsA.getLsbD i = true ∧ s.enableA.getLsbD i = true) ∨
        (s.eventsB.getLsbD i = true ∧ s.enableB.getLsbD i = true) := by
  rw [State.irqLow, Bool.or_eq_true, decide_eq_true_eq, decide_eq_true_eq, and_ne_zero_iff, and_ne_zero_iff,
    ← exists_or]
  exact exists_congr fun i => and_or_left.symm

/-! ## The register map (section 10.2) -/

/-- While RESET# is high every offset reads its register (R166). -/
theorem State.readRegister_of_live {s : State} (h : s.resetHeld = false) (o : Offset) :
    s.readRegister o = some (s.registerValue o) :=
  if_neg (by simp [h])

/-- CMD_RESULT reads the code of the result (R175). -/
theorem State.registerValue_cmdResult (s : State) : s.registerValue 0x07 = byteOf s.cmdResult.code := rfl

/-- BUF_OFFSET reads as a number 0..31 (R120). -/
theorem State.registerValue_bufOffset (s : State) : s.registerValue 0x15 = BitVec.ofNat 8 s.bufOffset.toNat :=
  BitVec.eq_of_toNat_eq (by simp [State.registerValue])

/-- TIME_LO reads the low byte of the time counter (R152). -/
theorem State.registerValue_timeLow (s : State) :
    s.registerValue 0x1A = BitVec.ofNat 8 (s.timeCounter.toNat % 256) :=
  BitVec.eq_of_toNat_eq ((timeLow_toNat _).trans (by simp))

/-- An offset without a register reads 0 (R167). -/
theorem State.registerValue_of_unused {s : State} {o : Offset}
    (h : (0x1D ≤ o.toNat ∧ o.toNat ≤ 0x1F) ∨ 0x2C ≤ o.toNat) : s.registerValue o = 0 := by
  have hargs : ¬(0x08 ≤ o.toNat ∧ o.toNat ≤ 0x0F) := by omega
  have htaken : ¬(0x20 ≤ o.toNat ∧ o.toNat ≤ 0x2B) := by omega
  unfold State.registerValue
  generalize o.toNat = n at h hargs htaken
  split
  case h_22 => exact (if_neg hargs).trans (if_neg htaken)
  all_goals omega

/-- A read of BUF_DATA drives what the register shows (R121). -/
theorem State.readBufData_readData (s : State) : s.readBufData.readData = s.bufDataValue := by
  unfold State.readBufData State.bufDataValue
  split <;> rfl

/-- Settles O33: STATUS and the event registers bit by bit, and the register map offset by offset. -/
theorem registersShowState : Obligations.RegistersShowState := by
  intro s
  obtain ⟨hmode, hphase, hbusy, hbreak, hstall⟩ := s.status_fields
  have hplace := s.events_getLsbD_place
  refine ⟨⟨?_, ?_, ?_, hbreak, hstall⟩, State.flags_of_not_write, hplace,
    ⟨hplace .commandDone, hplace .commandOverrun, hplace .resultsHigh, hplace .requestSpace, hplace .poolEmpty,
      hplace .stall, hplace .lineStopped, hplace .conflict, hplace .lineBreak, hplace .accessFault⟩,
    s.eventsA_getLsbD_two, ?_, s.eventsB_lt, s.irqLow_iff, fun hheld o => if_pos hheld, fun hlive => ?_⟩
  · rw [hmode]
    cases s.mode <;> rfl
  · rw [hphase]
    cases s.phase <;> rfl
  · rw [hbusy, CommandUnit.busy_iff]
  · rw [State.eventsA_getLsbD_four, State.stationChange, List.any_eq_true]
  · simp only [State.readRegister_of_live hlive, Option.some.injEq]
    refine ⟨?_, ?_, ?_, fun o ho => State.registerValue_of_unused ho⟩
    · simp only [List.forall_mem_cons]
      refine ⟨rfl, rfl, rfl, rfl, rfl, rfl, rfl, ?_, rfl, rfl, rfl, rfl, rfl, rfl, rfl, rfl, rfl, rfl, rfl, rfl, rfl,
        s.registerValue_bufOffset, rfl, rfl, rfl, s.registerValue_timeLow, rfl, rfl, nofun⟩
      rw [State.registerValue_cmdResult]
      cases s.cmdResult <;> rfl
    · simp only [List.forall_mem_cons]
      exact ⟨rfl, rfl, rfl, rfl, rfl, rfl, rfl, rfl, rfl, rfl, rfl, rfl, nofun⟩
    · intro t hread
      have hexec : exec .bufDataRead s = .next s.readBufData := exec_of_live rfl hlive
      obtain rfl := Host.Outcome.next.inj (hexec.symm.trans hread)
      exact s.readBufData_readData.symm

end Sys2Proof.Machine
end

section
/-! SUPPORT. The commands and the registers of the buffer pool: ALLOCATE, RELEASE and BUF_DATA. -/

namespace Sys2Proof.Machine

/-! ## ALLOCATE and RELEASE (R119) -/

/-- Where the free list has a head, ALLOCATE takes it (R119). -/
theorem allocateWork_of_cons {s : State} {b : Nat} {rest : List Nat} (h : s.freeList = b :: rest) :
    allocateWork s =
      { state := s.takeHead .host, code := .ok, replies := ⟨BitVec.ofNat 8 b, BitVec.ofNat 8 rest.length, 0, 0⟩ } := by
  simp only [allocateWork, h]
  rfl

/-- Where no buffer is FREE, ALLOCATE is refused (R119). -/
theorem allocateWork_of_nil {s : State} (h : s.freeList = []) :
    allocateWork s = { state := s, code := .poolEmpty, replies := ⟨0xFF, 0, 0, 0⟩ } := by
  simp only [allocateWork, h]
  rfl

/-- Settles O8: the head of the free list is cleared as it is taken. -/
theorem allocateTakesHead : Obligations.AllocateTakesHead := by
  intro s htakes
  have hexec : exec .allocate s = .next (s.hostCommand 0x01 allocateWork) := rfl
  rw [hexec, State.hostCommand_of_takes htakes]
  refine ⟨fun b rest hfree => ?_, fun hfree => ?_⟩
  · have htaken := State.takeHead_cons (s := s.handedOver 0x01) .host hfree
    rw [allocateWork_of_cons (s := s.handedOver 0x01) hfree]
    refine ⟨_, rfl, ?_, fun i hi => ?_, fun a ha => ?_⟩
    · rw [htaken, Events.raise_poolEmpty_if]
      rfl
    · rw [htaken]
      exact State.bufferByte_clearBuffer_same hi
    · rw [htaken]
      exact Memory.read_clear_outside ha
  · rw [allocateWork_of_nil (s := s.handedOver 0x01) hfree]

/-- An index above 63 is refused (R119). -/
theorem releaseWork_of_no_buffer {s : State} (h : 63 < s.latch.arg0.toNat) :
    releaseWork s =
      { state := s
        code := .badArgument
        replies := ⟨s.latch.arg0, BitVec.ofNat 8 s.freeList.length, 0xFF, 0⟩ } := by
  rw [releaseWork, if_pos h]
  rfl

/-- A HOST buffer becomes FREE at the tail of the free list, and the Dispatcher looks (R119). -/
theorem releaseWork_of_host {s : State} (h : s.latch.arg0.toNat ≤ 63)
    (ho : s.owner s.latch.arg0.toNat = some .host) :
    releaseWork s =
      { state := State.look { s with
          owners := s.owners.set s.latch.arg0.toNat .free, freeList := s.freeList ++ [s.latch.arg0.toNat] }
        code := .ok
        replies := ⟨s.latch.arg0, BitVec.ofNat 8 (s.freeList.length + 1), 0, 0⟩ } := by
  simp only [releaseWork, if_neg (Nat.not_lt.2 h), if_pos ho, State.changeOwner_eq _ ho, Replies.of_toNat,
    List.length_append, List.length_singleton, if_true]

/-- A buffer of another ownership is refused, and its ownership shown (R113, R119). -/
theorem releaseWork_of_other {s : State} {o : Ownership} (h : s.latch.arg0.toNat ≤ 63)
    (ho : s.owner s.latch.arg0.toNat = some o) (hne : o ≠ .host) :
    releaseWork s =
      { state := s
        code := .notHost
        replies := ⟨s.latch.arg0, BitVec.ofNat 8 s.freeList.length, byteOf o.code, 0⟩ } := by
  have hhost : ¬ s.owner s.latch.arg0.toNat = some .host := fun he => hne (Option.some.inj (ho.symm.trans he))
  rw [releaseWork, if_neg (Nat.not_lt.2 h), if_neg hhost, ho, Replies.of, byteOf_toNat]
  rfl

/-- Settles O9: by the ownership of the named buffer. -/
theorem releaseFreesBuffer : Obligations.ReleaseFreesBuffer := by
  rintro s b htakes rfl
  have hexec : exec .release s = .next (s.hostCommand 0x02 releaseWork) := rfl
  rw [hexec, State.hostCommand_of_takes htakes]
  refine ⟨fun hindex => ?_, fun hindex ho => ?_, ?_⟩
  · rw [releaseWork_of_no_buffer (s := s.handedOver 0x02) hindex]
    rfl
  · rw [releaseWork_of_host (s := s.handedOver 0x02) hindex ho]
    rfl
  · intro p hp hindex ho
    have hcode : p.1 ≠ .host ∧ byteOf p.1.code = p.2 := by
      clear ho
      revert p
      decide
    rw [releaseWork_of_other (s := s.handedOver 0x02) hindex ho hcode.1, hcode.2]
    rfl

/-! ## BUF_DATA (R120 to R122) -/

/-- The ownership that a BUF_DATA access is tested against (R121). -/
theorem State.selectedOwner_eq_some_iff (s : State) (o : Ownership) :
    s.selectedOwner = some o ↔ s.bufSelect.toNat < 64 ∧ s.owner s.bufSelect.toNat = some o := by
  unfold State.selectedOwner State.selected
  split <;> simp [*]

/-- A read is permitted of a HOST and of a RESULT buffer (R121). -/
theorem State.mayRead_iff (s : State) :
    s.mayRead = true ↔ s.bufSelect.toNat < 64 ∧
      (s.owner s.bufSelect.toNat = some .host ∨ s.owner s.bufSelect.toNat = some .result) := by
  rw [State.mayRead, Bool.or_eq_true, beq_iff_eq, beq_iff_eq, State.selectedOwner_eq_some_iff,
    State.selectedOwner_eq_some_iff, and_or_left]

/-- A write is permitted of a HOST buffer (R121). -/
theorem State.mayWrite_iff (s : State) :
    s.mayWrite = true ↔ s.bufSelect.toNat < 64 ∧ s.owner s.bufSelect.toNat = some .host := by
  rw [State.mayWrite, beq_iff_eq, State.selectedOwner_eq_some_iff]

/-- The byte of FAULT, its bits as numbers (R122). -/
theorem faultByte_eq (select : Byte) (write : Bool) :
    faultByte select write =
      BitVec.ofNat 8 (select.toNat % 64 + (if 63 < select.toNat then 64 else 0) + if write then 128 else 0) := by
  unfold faultByte byteOf bitOf
  simp only [decide_eq_true_eq, mul_ite, mul_one, mul_zero]

/-- Settles O35: a permitted access, and a fault, of a read and of a write. -/
theorem bufDataAccess : Obligations.BufDataAccess := by
  rintro s value select hlive rfl
  have hread : exec .bufDataRead s = .next s.readBufData := exec_of_live rfl hlive
  have hwrite : exec (.bufDataWrite value) s = .next (s.writeBufData value) :=
    exec_of_live (f := (·.writeBufData value)) rfl hlive
  rw [hread, hwrite]
  refine ⟨fun hselect ho => ?_, fun hfault => ?_, fun hselect ho hwf => ?_, fun hfault => ?_⟩
  · rw [State.readBufData, if_pos (s.mayRead_iff.2 ⟨hselect, ho⟩)]
    rfl
  · have hrefused : ¬ s.mayRead = true := by
      rw [State.mayRead_iff, not_and_or, not_or, Nat.not_lt]
      exact hfault
    rw [State.readBufData, if_neg hrefused, State.accessFault, faultByte_eq]
    rfl
  · have hin : s.bufSelect.toNat < 64 ∧ s.bufOffset.toNat < 32 := ⟨hselect, s.bufOffset.isLt⟩
    rw [State.writeBufData, if_pos (s.mayWrite_iff.2 ⟨hselect, ho⟩), State.writeBuffer, if_pos hin]
    exact ⟨_, rfl, rfl, Memory.read_write_same value hwf, fun a ha => Memory.read_write_other _ value ha⟩
  · have hrefused : ¬ s.mayWrite = true := by
      rw [State.mayWrite_iff, not_and_or, Nat.not_lt]
      exact hfault
    rw [State.writeBufData, if_neg hrefused, State.accessFault, faultByte_eq]
    rfl

end Sys2Proof.Machine
end

section
/-! SUPPORT. What a change of the part leaves to the holders of the buffers: HOST buffers stay HOST, and the contents of
QUEUED buffers stay as they are. -/

namespace Sys2Proof.Machine

/-! ## The pool -/

/-- The buffer pool: the ownerships, the free list and message memory. -/
def State.pool (s : State) : List Ownership × List Nat × Memory :=
  (s.owners, s.freeList, s.memory)

/-- States with equal pools agree on each of its parts. -/
theorem State.pool_fields {s t : State} (h : t.pool = s.pool) :
    t.owners = s.owners ∧ t.freeList = s.freeList ∧ t.memory = s.memory := by
  simpa only [State.pool, Prod.mk.injEq] using h

/-- A replaced entry of the Station Table is not seen by the pool. -/
@[simp] theorem State.setStation_pool (s : State) (a : Nat) (e : Station) : (s.setStation a e).pool = s.pool := by
  rw [State.setStation_eq]
  rfl

/-- The end of a drain is not seen by the pool. -/
@[simp] theorem State.endDrain_pool (s : State) : s.endDrain.pool = s.pool := by
  rw [State.endDrain_frame]
  rfl

/-- Only a FREE buffer stands in the free list. -/
theorem State.PoolOk.notMem_freeList {s : State} (h : s.PoolOk) {b : Nat} {o : Ownership} (ho : s.owner b = some o)
    (hne : o ≠ .free) : b ∉ s.freeList := fun hb => by
  obtain ⟨-, -, hlt, hiff⟩ := h
  rw [(hiff b (hlt b hb)).1 hb] at ho
  exact hne (Option.some.inj ho).symm

/-- The head of the free list is FREE. -/
theorem State.PoolOk.owner_head {s : State} (h : s.PoolOk) {b : Nat} {rest : List Nat} (hfree : s.freeList = b :: rest) :
    s.owner b = some .free := by
  obtain ⟨-, -, hlt, hiff⟩ := h
  have hb : b ∈ s.freeList := by simp [hfree]
  exact (hiff b (hlt b hb)).1 hb

/-- A change of ownership from another than FREE keeps the pool sound (R114). -/
theorem State.PoolOk.changeOwner {s : State} (h : s.PoolOk) (b : Nat) {old : Ownership} (new : Ownership)
    (hold : old ≠ .free) : (s.changeOwner b old new).PoolOk := by
  by_cases ho : s.owner b = some old
  · have hout := h.notMem_freeList ho hold
    have hb := h.owner_lt ho
    obtain ⟨hlen, hnodup, hlt, hiff⟩ := h
    have howner : ∀ x, (s.changeOwner b old new).owner x = if x = b then some new else s.owner x := fun x => by
      simp [State.owner_changeOwner, ho]
    have hfree : (s.changeOwner b old new).freeList = if new = .free then s.freeList ++ [b] else s.freeList := by
      rw [State.changeOwner_eq new ho]
    refine ⟨(s.changeOwner_owners_length ..).trans hlen, ?_, ?_, fun x hx => ?_⟩
    · rw [hfree]
      split
      · simpa [List.nodup_append, hnodup] using fun x hx (he : x = b) => hout (he ▸ hx)
      · exact hnodup
    · rw [hfree]
      split
      · simpa [or_imp, forall_and, hb] using hlt
      · exact hlt
    · rw [hfree, howner]
      by_cases hxb : x = b
      · subst hxb
        split <;> simp_all
      · rw [if_neg hxb, ← hiff x hx]
        split <;> simp [hxb]
  · rwa [State.changeOwner_of_ne new ho]

/-! ## HOST buffers -/

/-- A change that keeps the pool sound and leaves every HOST buffer HOST (R118). -/
def State.SparesHost (s t : State) : Prop :=
  s.PoolOk → t.PoolOk ∧ ∀ b, s.owner b = some .host → t.owner b = some .host

/-- Two changes that leave HOST buffers HOST are one. -/
theorem State.SparesHost.trans {s t u : State} (h : s.SparesHost t) (h' : t.SparesHost u) : s.SparesHost u :=
  fun hok =>
    have ⟨hok', hhost⟩ := h hok
    have ⟨hok'', hhost'⟩ := h' hok'
    ⟨hok'', fun b hb => hhost' b (hhost b hb)⟩

/-- A change that leaves the ownerships and the free list. -/
theorem State.SparesHost.of_eq {s t : State} (howners : t.owners = s.owners) (hfree : t.freeList = s.freeList) :
    s.SparesHost t := by
  unfold State.SparesHost State.PoolOk State.owner
  rw [howners, hfree]
  exact fun hok => ⟨hok, fun _ hb => hb⟩

/-- A buffer passes from another party than the host, if it has that party's ownership (R114). -/
theorem State.SparesHost.changeOwner (s : State) (buffer : Option Nat) (old new : Ownership)
    (hhost : old ≠ .host) (hfree : old ≠ .free) : s.SparesHost (s.changeOwner? buffer old new) := by
  cases buffer with
  | none => exact .of_eq rfl rfl
  | some x =>
    refine fun hok => ⟨hok.changeOwner x new hfree, fun b hb => ?_⟩
    have hkept : ¬(b = x ∧ s.owner x = some old) := by
      rintro ⟨rfl, ho⟩
      exact hhost (Option.some.inj (ho.symm.trans hb))
    rw [State.changeOwner?, State.owner_changeOwner, if_neg hkept, hb]

/-! ## QUEUED buffers -/

/-- A change that makes no buffer QUEUED and leaves the contents of every buffer that stays QUEUED (R126). -/
def State.SparesQueued (s t : State) : Prop :=
  s.PoolOk → ∀ b, t.owner b = some .queued →
    s.owner b = some .queued ∧ ∀ i < 32, t.bufferByte b i = s.bufferByte b i

/-- A buffer passes on to a party by which it is not QUEUED, its contents unchanged (R114). -/
theorem State.SparesQueued.changeOwner (s : State) (buffer : Option Nat) (old new : Ownership)
    (hnew : new ≠ .queued) : s.SparesQueued (s.changeOwner? buffer old new) := by
  cases buffer with
  | none => exact fun _ b hb => ⟨hb, fun _ _ => rfl⟩
  | some x =>
    intro _ b hb
    rw [State.changeOwner?, State.owner_changeOwner] at hb
    split at hb
    · exact absurd (Option.some.inj hb) hnew
    · exact ⟨hb, fun i _ => by simp [State.bufferByte, State.changeOwner?]⟩

/-! ## HOST and QUEUED buffers together -/

/-- A change that spares HOST buffers and QUEUED buffers. -/
def State.KeepsPool (s t : State) : Prop :=
  s.SparesHost t ∧ s.SparesQueued t

/-- Two such changes are one. -/
theorem State.KeepsPool.trans {s t u : State} (h : s.KeepsPool t) (h' : t.KeepsPool u) : s.KeepsPool u := by
  refine ⟨h.1.trans h'.1, fun hok b hb => ?_⟩
  obtain ⟨htqueued, htbytes⟩ := h'.2 (h.1 hok).1 b hb
  obtain ⟨hsqueued, hsbytes⟩ := h.2 hok b htqueued
  exact ⟨hsqueued, fun i hi => (htbytes i hi).trans (hsbytes i hi)⟩

/-- A change that the pool does not see. -/
theorem State.KeepsPool.of_pool {s t : State} (h : t.pool = s.pool) : s.KeepsPool t := by
  obtain ⟨howners, hfree, hmemory⟩ := State.pool_fields h
  refine ⟨.of_eq howners hfree, fun _ b hb => ⟨?_, fun i _ => ?_⟩⟩
  · rwa [State.owner, howners] at hb
  · rw [State.bufferByte, hmemory, State.bufferByte]

/-- No change. -/
theorem State.KeepsPool.refl (s : State) : s.KeepsPool s := .of_pool rfl

/-- Such a change, and then one that the pool does not see. -/
theorem State.KeepsPool.andPool {s t u : State} (h : s.KeepsPool t) (hpool : u.pool = t.pool) : s.KeepsPool u :=
  h.trans (.of_pool hpool)

/-- A buffer passes from one other party than the host to another, and does not become QUEUED (R114). -/
theorem State.KeepsPool.changeOwner (s : State) (buffer : Option Nat) (old new : Ownership) (hhost : old ≠ .host)
    (hfree : old ≠ .free) (hnew : new ≠ .queued) : s.KeepsPool (s.changeOwner? buffer old new) :=
  ⟨.changeOwner s buffer old new hhost hfree, .changeOwner s buffer old new hnew⟩

/-- The head of the free list, which is FREE, passes to the host or to the transaction in flight and is cleared (R115). -/
theorem State.KeepsPool.takeHead (s : State) (new : Ownership) (hfree : new ≠ .free) (hqueued : new ≠ .queued) :
    s.KeepsPool (s.takeHead new) := by
  cases hlist : s.freeList with
  | nil =>
    rw [State.takeHead_nil new hlist]
    exact .refl s
  | cons head rest =>
    have howner : s.PoolOk → ∀ x, (s.takeHead new).owner x = if x = head then some new else s.owner x := fun hok x => by
      have hlt := hok.owner_lt (hok.owner_head hlist)
      rw [State.takeHead_cons new hlist, State.owner, State.owner, List.getElem?_set, hok.1, if_pos hlt]
      exact if_congr eq_comm rfl rfl
    have hhead : (s.takeHead new).freeList = rest := by rw [State.takeHead_cons new hlist]
    refine ⟨fun hok => ⟨?_, fun b hb => ?_⟩, fun hok b hb => ?_⟩
    · obtain ⟨hlen, hnodup, hlt, hiff⟩ := id hok
      rw [hlist, List.nodup_cons] at hnodup
      refine ⟨(s.takeHead_owners_length new).trans hlen, hhead ▸ hnodup.2,
        fun x hx => hlt x (hlist ▸ List.mem_cons_of_mem _ (hhead ▸ hx)), fun x hx => ?_⟩
      rw [hhead, howner hok]
      by_cases hxb : x = head
      · subst hxb
        simp [hnodup.1, hfree]
      · rw [if_neg hxb, ← hiff x hx, hlist, List.mem_cons, or_iff_right hxb]
    · have hne : b ≠ head := fun he => by simp [he, hok.owner_head hlist] at hb
      rw [howner hok, if_neg hne, hb]
    · have hne : b ≠ head := by
        rintro rfl
        rw [howner hok, if_pos rfl] at hb
        exact hqueued (Option.some.inj hb)
      rw [howner hok, if_neg hne] at hb
      refine ⟨hb, fun i hi => ?_⟩
      rw [State.takeHead_cons new hlist]
      exact State.bufferByte_clearBuffer_other hi hne

/-! ## The shared operations -/

/-- A closing frees the buffers in flight, or gives one of them to its record (R102). -/
theorem State.close_keepsPool (s : State) (c : Context) (record : Option ResultRecord) (clearSync : Bool) :
    s.KeepsPool (s.close c record clearSync) := by
  obtain ⟨howners, hfree⟩ := s.close_pool c record clearSync
  have hanswer : (if (record.bind ResultRecord.buffer).isSome then Ownership.result else .free) ≠ .queued := by
    split <;> nofun
  refine ((State.KeepsPool.changeOwner s c.outBuffer .line .free nofun nofun nofun).trans
    (State.KeepsPool.changeOwner _ c.answerBuffer .line _ nofun nofun hanswer)).andPool ?_
  simp [State.pool, howners, hfree]

/-- An early closing (R52, R80, R91, R146). -/
theorem State.closeEarly_keepsPool (s : State) (c : Context) (outcome : ResultOutcome)
    (cancelRequested taken : Bool) : s.KeepsPool (s.closeEarly c outcome cancelRequested taken) := by
  obtain ⟨record, clear, heq, -⟩ := s.closeEarly_eq_close c outcome cancelRequested taken
  rw [heq]
  exact s.close_keepsPool c record clear

/-- The look of the Dispatcher takes buffers from the free list and from the queue (R57 to R64). -/
theorem State.look_keepsPool (s : State) : s.KeepsPool s.look := by
  refine State.look_keeps (P := s.KeepsPool) (.refl s) (fun x hx => hx.andPool rfl) (fun x hx _ => ?_)
    (fun x r hx _ _ _ _ _ => hx.trans ?_) (fun x r hx _ _ _ _ _ => hx.trans ?_) (fun x a hx _ _ _ _ _ _ => hx.trans ?_)
  · rw [State.stalledLook_frame]
    exact hx.andPool rfl
  · exact (State.KeepsPool.of_pool (s := x) (t := x.removeRequest r.ticket) rfl).trans
      ((State.KeepsPool.changeOwner _ r.outBuffer .queued .free nofun nofun nofun).andPool rfl)
  · have htaken : x.KeepsPool (x.dispatchTaken r) := by
      have hremoved : x.KeepsPool { x.removeRequest r.ticket with reserved := true } := .of_pool rfl
      unfold State.dispatchTaken
      split
      · exact hremoved.trans (.takeHead _ .line nofun nofun)
      · exact hremoved
    exact htaken.trans ((State.KeepsPool.changeOwner _ r.outBuffer .queued .line nofun nofun nofun).andPool rfl)
  · have hreserved : x.KeepsPool { x with reserved := true } := .of_pool rfl
    exact (hreserved.trans (.takeHead _ .line nofun nofun)).andPool (State.setStation_pool _ _ _)

/-- Such a change, and then a look (R57). -/
theorem State.KeepsPool.look {s t : State} (h : s.KeepsPool t) : s.KeepsPool t.look :=
  h.trans t.look_keepsPool

/-- A collision (R91). -/
theorem State.collide_keepsPool (s : State) : s.KeepsPool s.collide := by
  cases hc : s.context with
  | none =>
    have hnothing : s.collide = s := by simp only [State.collide, hc]
    rw [hnothing]
    exact .refl s
  | some c =>
    have hheld : s.KeepsPool (s.collisionHeld c) := .of_pool rfl
    have hraised : s.KeepsPool (s.collisionRaised c) := .of_pool rfl
    by_cases hlimit : 4 ≤ c.collisions + 1
    · rw [State.collide_of_limit hc hlimit]
      exact (hraised.trans (State.closeEarly_keepsPool ..)).andPool (State.endDrain_pool _)
    · cases hcancel : c.cancelPending with
      | true =>
        rw [State.collide_of_cancel hc (by omega) hcancel]
        exact (hheld.trans (State.closeEarly_keepsPool ..)).andPool (State.endDrain_pool _)
      | false =>
        rw [State.collide_of_resend hc (by omega) hcancel]
        exact hheld

/-- A BUSY return makes the out buffer QUEUED again and frees the answer buffer (R65). -/
theorem State.busyReturn_sparesHost (s : State) (c : Context) : s.SparesHost (s.busyReturn c) :=
  ((State.SparesHost.changeOwner s c.outBuffer .line .queued nofun nofun).trans
    (State.SparesHost.changeOwner _ c.answerBuffer .line .free nofun nofun)).trans (.of_eq rfl rfl)

/-- A verdict that takes effect leaves HOST buffers HOST (R99). -/
theorem State.takeVerdict_sparesHost (s : State) : s.SparesHost s.takeVerdict := by
  have hstation : ∀ (a : Nat) (e : Station), s.SparesHost (s.setStation a e) := fun a e =>
    (State.KeepsPool.of_pool (s.setStation_pool a e)).1
  rcases s.takeVerdict_cases with heq | ⟨c, -, ⟨-, r, heq⟩ | ⟨v, -, -, ⟨-, lost, heq⟩ | ⟨-, heq⟩⟩⟩ <;> rw [heq]
  · exact .of_eq rfl rfl
  · exact (s.close_keepsPool ..).1
  · refine (hstation c.station (s.entryAfter c v)).trans ?_
    rcases (s.setStation c.station (s.entryAfter c v)).decideRequest_cases c v lost with ⟨r, h⟩ | h | ⟨-, h⟩ <;> rw [h]
    · exact (State.close_keepsPool ..).1
    · exact .of_eq rfl rfl
    · exact State.busyReturn_sparesHost _ c
  · refine (hstation c.station (s.entryAfter c v)).trans ?_
    obtain ⟨record, placed, hplaced, h⟩ := (s.setStation c.station (s.entryAfter c v)).decidePoll_cases c v
    rw [h]
    refine State.SparesHost.trans ?_ (State.close_keepsPool placed c record false).1
    rcases hplaced with rfl | ⟨e, rfl⟩
    · exact .of_eq rfl rfl
    · exact (State.KeepsPool.of_pool (State.setStation_pool _ _ _)).1

/-- A verdict that takes effect leaves message memory (R99). -/
@[simp] theorem State.takeVerdict_memory (s : State) : s.takeVerdict.memory = s.memory := by
  rcases s.takeVerdict_cases with heq | ⟨c, -, ⟨-, r, heq⟩ | ⟨v, -, -, ⟨-, lost, heq⟩ | ⟨-, heq⟩⟩⟩ <;> rw [heq]
  · simp
  · rcases (s.setStation c.station (s.entryAfter c v)).decideRequest_cases c v lost with ⟨r, h⟩ | h | ⟨-, h⟩ <;> rw [h]
    · simp
    · simp
    · simp [State.busyReturn]
  · obtain ⟨record, placed, hplaced, h⟩ := (s.setStation c.station (s.entryAfter c v)).decidePoll_cases c v
    rcases hplaced with rfl | ⟨e, rfl⟩ <;> simp [h]

end Sys2Proof.Machine
end

section
/-! SUPPORT. What each row of the table does to the buffer pool, said once: it is one of the acts below. -/

namespace Sys2Proof.Machine

/-! ## The answer being received -/

/-- A change of message memory within the answer buffer alone, while the ownerships and the answer buffer stay (R8,
R94). -/
def State.Receives (s t : State) : Prop :=
  t.owners = s.owners ∧ t.freeList = s.freeList ∧
    t.context.bind Context.answerBuffer = s.context.bind Context.answerBuffer ∧
    ∀ b, s.context.bind Context.answerBuffer ≠ some b → ∀ i < 32, t.bufferByte b i = s.bufferByte b i

/-- A change of neither the pool nor the answer buffer. -/
theorem State.Receives.of_eq {s t : State} (hpool : t.pool = s.pool)
    (hanswer : t.context.bind Context.answerBuffer = s.context.bind Context.answerBuffer) : s.Receives t := by
  obtain ⟨howners, hfree, hmemory⟩ := State.pool_fields hpool
  exact ⟨howners, hfree, hanswer, fun b _ i _ => by rw [State.bufferByte, hmemory, State.bufferByte]⟩

/-- Two such changes are one. -/
theorem State.Receives.trans {s t u : State} (h : s.Receives t) (h' : t.Receives u) : s.Receives u := by
  obtain ⟨howners, hfree, hanswer, hbytes⟩ := h
  obtain ⟨howners', hfree', hanswer', hbytes'⟩ := h'
  exact ⟨howners'.trans howners, hfree'.trans hfree, hanswer'.trans hanswer, fun b hb i hi =>
    (hbytes' b (hanswer ▸ hb) i hi).trans (hbytes b hb i hi)⟩

/-- The beginning of an answer may clear the answer buffer (R94). -/
theorem State.beginReception_receives (s : State) : s.Receives s.beginReception := by
  unfold State.beginReception
  split
  · rename_i x hc
    refine ⟨rfl, rfl, rfl, fun b hb i hi => ?_⟩
    exact State.bufferByte_clearBuffer_other hi fun he => hb (by rw [hc, he]; rfl)
  · exact .of_eq rfl rfl

/-- A stored payload byte goes into the answer buffer (R94). -/
theorem State.storePayload_receives {s : State} {c : Context} (hc : s.context = some c) (data : Byte) :
    s.Receives (s.storePayload c data) := by
  unfold State.storePayload
  split
  · exact .of_eq rfl rfl
  · rename_i x hx
    split
    · refine ⟨by simp, by simp, by simp, fun b hb i hi => ?_⟩
      have hne : b ≠ x := fun he => hb (by rw [hc, he]; exact hx)
      unfold State.writeBuffer
      split
      · rename_i hin
        exact Memory.read_write_other _ _ fun ha => hne (bufferAddress_inj hi hin.2 ha).1
      · rfl
    · exact .of_eq rfl rfl

/-- A character of an answer (R94, R95, R97). -/
theorem State.answerCharacter_receives (s : State) (d : Delivered) : s.Receives (s.answerCharacter d) := by
  cases hc : s.context with
  | none =>
    have hnothing : s.answerCharacter d = s := by simp only [State.answerCharacter, hc]
    rw [hnothing]
    exact .of_eq rfl rfl
  | some c =>
    cases hv : c.verdict with
    | some v =>
      rw [State.answerCharacter_of_failed d hc (by simp [hv])]
      exact .of_eq rfl rfl
    | none =>
      cases hx : s.reception.failure c d with
      | some x =>
        rw [State.answerCharacter_of_failure hc hv hx]
        exact .of_eq rfl (by rw [hc]; rfl)
      | none =>
        by_cases hmore : s.reception.taken < 3 ∨ s.reception.taken < s.reception.length + 4
        · rw [State.answerCharacter_of_kept hc hv hx hmore]
          split
          · exact (State.storePayload_receives hc d.data).trans (.of_eq rfl rfl)
          · exact .of_eq rfl rfl
        · rw [State.answerCharacter_of_checkB hc hv hx (by omega) (by omega)]
          exact .of_eq rfl (by rw [hc]; rfl)

/-- A break that cuts an answer short (R107). -/
theorem State.breakReception_receives (s : State) : s.Receives s.breakReception := by
  unfold State.breakReception
  split
  · exact .of_eq rfl rfl
  · rename_i c hc
    split
    · exact .of_eq rfl rfl
    · exact .of_eq rfl (by rw [hc]; rfl)

/-! ## The acts -/

/-- The rows of R118 that leave every HOST buffer HOST: no SUBMIT, no RELEASE, no reset, and no write to COMMAND of a code
that has a row of its own. -/
def leavesHost : Instr → Bool
  | .submit | .release | .reset | .resetAssert | .powerOn | .initialisationEnd | .discardedCommandWrite _ => false
  | .unknownCommand code => isUnknownCode code
  | .registerWrite offset _ => isPlainOffset offset
  | _ => true

/-- What the row `i` does to the buffer pool. It spares HOST and QUEUED buffers; or it receives a part of an answer; or
buffers pass on from other parties than the host, memory unchanged, before a change that spares both; or, in a row that
R118 leaves out, buffers of any party but FREE pass on before such a change; or, in a reset, no buffer is QUEUED
afterwards. -/
inductive State.PoolActs (i : Instr) (s t : State) : Prop
  | keeps (h : s.KeepsPool t)
  | receives (h : s.Receives t)
  | passes {x : State} (hmemory : x.memory = s.memory) (hspares : s.SparesHost x) (h : x.KeepsPool t)
  | gives {x : State} (hi : leavesHost i = false) (hmemory : x.memory = s.memory) (hok : s.PoolOk → x.PoolOk)
      (h : x.KeepsPool t)
  | empties (hi : leavesHost i = false) (h : ∀ b, t.owner b ≠ some .queued)

/-- A row that the pool does not see. -/
theorem State.PoolActs.of_pool {i : Instr} {s t : State} (h : t.pool = s.pool) : State.PoolActs i s t :=
  .keeps (.of_pool h)

/-- An act on a state that differs in neither the pool nor the transaction in flight. -/
theorem State.PoolActs.before {i : Instr} {s s' t : State} (h : State.PoolActs i s' t) (hpool : s'.pool = s.pool)
    (hcontext : s'.context = s.context) : State.PoolActs i s t := by
  have hsame : s.KeepsPool s' := .of_pool hpool
  obtain ⟨-, -, hmem⟩ := State.pool_fields hpool
  cases h with
  | keeps h => exact .keeps (hsame.trans h)
  | receives h => exact .receives ((State.Receives.of_eq hpool (by rw [hcontext])).trans h)
  | passes hmemory hspares h => exact .passes (hmemory.trans hmem) (hsame.1.trans hspares) h
  | gives hi hmemory hok h => exact .gives hi (hmemory.trans hmem) (fun hs => hok (hsame.1 hs).1) h
  | empties hi h => exact .empties hi h

/-- An act, and then a change of neither the pool nor the transaction in flight. -/
theorem State.PoolActs.after {i : Instr} {s t u : State} (h : State.PoolActs i s t) (hpool : u.pool = t.pool)
    (hcontext : u.context = t.context) : State.PoolActs i s u := by
  cases h with
  | keeps h => exact .keeps (h.andPool hpool)
  | receives h => exact .receives (h.trans (.of_eq hpool (by rw [hcontext])))
  | passes hmemory hspares h => exact .passes hmemory hspares (h.andPool hpool)
  | gives hi hmemory hok h => exact .gives hi hmemory hok (h.andPool hpool)
  | empties hi h =>
    obtain ⟨howners, -, -⟩ := State.pool_fields hpool
    exact .empties hi fun b hb => h b (by rwa [State.owner, howners] at hb)

/-- HOST buffers stay HOST through the rows that R118 names (R118). -/
theorem State.PoolActs.owner_host {i : Instr} {s t : State} (h : State.PoolActs i s t) (hi : leavesHost i = true)
    (hok : s.PoolOk) {b : Nat} (hb : s.owner b = some .host) : t.owner b = some .host := by
  have hleaves : leavesHost i ≠ false := by simp [hi]
  cases h with
  | keeps h => exact (h.1 hok).2 b hb
  | receives h =>
    obtain ⟨howners, -⟩ := h
    rwa [State.owner, howners]
  | passes _ hspares h => exact ((hspares.trans h.1) hok).2 b hb
  | gives hgives => exact absurd hgives hleaves
  | empties hempties => exact absurd hempties hleaves

/-- The contents of a buffer that is QUEUED before and after a row stay (R126). -/
theorem State.PoolActs.bytes_queued {i : Instr} {s t : State} (h : State.PoolActs i s t) (hok : s.BuffersOk) {b : Nat}
    (hs : s.owner b = some .queued) (ht : t.owner b = some .queued) {j : Nat} (hj : j < 32) :
    t.bufferByte b j = s.bufferByte b j := by
  have hafter : ∀ {x : State}, x.memory = s.memory → x.PoolOk → x.KeepsPool t → t.bufferByte b j = s.bufferByte b j :=
    fun hmemory hx h => ((h.2 hx b ht).2 j hj).trans (by rw [State.bufferByte, hmemory, State.bufferByte])
  cases h with
  | keeps h => exact (h.2 hok.1 b ht).2 j hj
  | receives h =>
    obtain ⟨-, -, -, hbytes⟩ := h
    refine hbytes b (fun hanswer => ?_) j hj
    obtain ⟨c, hc, hb⟩ := Option.bind_eq_some_iff.1 hanswer
    have hline : s.owner b = some .line := (hok.line_iff b).1 (by simp [State.lineBuffers_of_flight hc, hb])
    simp [hs] at hline
  | passes hmemory hspares h => exact hafter hmemory (hspares hok.1).1 h
  | gives _ hmemory hx h => exact hafter hmemory (hx hok.1) h
  | empties _ h => exact absurd ht (h b)

/-! ## The work of the commands -/

/-- ALLOCATE (R119). -/
theorem allocateWork_keepsPool (s : State) : s.KeepsPool (allocateWork s).state := by
  unfold allocateWork
  split
  · exact .refl s
  · exact .takeHead s .host nofun nofun

/-- RELEASE (R119). -/
theorem releaseWork_poolActs {i : Instr} (hi : leavesHost i = false) (s : State) :
    State.PoolActs i s (releaseWork s).state := by
  unfold releaseWork
  dsimp only
  split
  · exact .of_pool rfl
  · split
    · exact .gives hi (s.changeOwner_memory _ .host .free) (fun hok => hok.changeOwner _ .free nofun)
        (State.look_keepsPool _)
    · exact .of_pool rfl

/-- SUBMIT (R45 to R48). -/
theorem submitWork_poolActs {i : Instr} (hi : leavesHost i = false) (s : State) :
    State.PoolActs i s (submitWork s).state := by
  have hok : s.PoolOk → (s.enqueue s.latch).PoolOk := fun hok => by
    unfold State.enqueue
    cases bufferOfArg s.latch.arg2 with
    | none => exact hok
    | some b => exact hok.changeOwner b .queued nofun
  unfold submitWork
  split
  · exact .of_pool rfl
  · split
    · exact .of_pool rfl
    · split
      · exact .of_pool rfl
      · exact .gives hi (by simp [State.enqueue]) hok (State.look_keepsPool _)

/-- CANCEL of the request in GAP or HOLDOFF (R52). -/
theorem State.cancelWaiting_keepsPool (s : State) (c : Context) : s.KeepsPool (s.cancelWaiting c) := by
  have hclosed := s.closeEarly_keepsPool c .cancelled false true
  have hidle : s.KeepsPool (s.closeEarly c .cancelled false true).enterIdle := hclosed.andPool rfl
  unfold State.cancelWaiting
  dsimp only
  split
  · exact (hidle.andPool (State.endDrain_pool _)).look
  · exact hclosed.andPool (State.endDrain_pool _)

/-- CANCEL (R49 to R53). -/
theorem cancelWork_keepsPool (s : State) : s.KeepsPool (cancelWork s).state := by
  unfold cancelWork
  dsimp only
  split
  · exact .refl s
  · split
    · rename_i r _
      have hremoved : s.KeepsPool (s.removeRequest r.ticket) := .of_pool rfl
      exact (hremoved.trans (.changeOwner _ r.outBuffer .queued .free nofun nofun nofun)).look
    · split
      · exact .refl s
      · split
        · split
          · exact s.cancelWaiting_keepsPool _
          · exact .of_pool rfl
        · exact .refl s

/-- TAKE (R135, R136). -/
theorem takeWork_keepsPool (s : State) : s.KeepsPool (takeWork s).state := by
  unfold takeWork
  split
  · exact .refl s
  · rename_i r rest _
    have htaken : s.KeepsPool { s with results := rest, taken := Taken.ofRecord r } := .of_pool rfl
    exact (htaken.trans (.changeOwner _ r.buffer .result .host nofun nofun nofun)).look

/-- START (R143). -/
theorem startWork_keepsPool (s : State) : s.KeepsPool (startWork s).state := by
  have hrunning : s.KeepsPool { s with mode := .running } := .of_pool rfl
  unfold startWork
  split
  · exact .refl s
  · split
    · exact .refl s
    · exact hrunning.look

/-- STOP (R144). -/
theorem State.stopLine_pool (s : State) : s.stopLine.pool = s.pool := by
  unfold State.stopLine
  split
  · rfl
  all_goals split <;> rfl

/-- ABORT (R146). -/
theorem abortWork_keepsPool (s : State) : s.KeepsPool (abortWork s).state := by
  have hreleased : s.KeepsPool s.releaseLine := .of_pool rfl
  cases hc : s.context with
  | none =>
    rw [abortWork_of_idle hc]
    exact .of_pool rfl
  | some c =>
    rw [abortWork_of_flight hc]
    exact (hreleased.trans (State.closeEarly_keepsPool ..)).andPool rfl

/-- SET_LINE (R110). -/
theorem setLineWork_pool (s : State) : (setLineWork s).state.pool = s.pool := by
  unfold setLineWork
  split
  · rfl
  · split <;> rfl

/-- GET_LINE (R111). -/
theorem getLineWork_pool (s : State) : (getLineWork s).state.pool = s.pool := by
  unfold getLineWork
  dsimp only
  split
  · rfl
  · dsimp only
    split <;> rfl

/-- SET_LIMITS (R148). -/
theorem setLimitsWork_pool (s : State) : (setLimitsWork s).state.pool = s.pool := by
  unfold setLimitsWork
  split <;> rfl

/-- GET_LIMITS (R149). -/
theorem getLimitsWork_pool (s : State) : (getLimitsWork s).state.pool = s.pool := by
  unfold getLimitsWork
  dsimp only
  split <;> rfl

/-- SET_STATION (R28 to R34). -/
theorem setStationWork_keepsPool (s : State) : s.KeepsPool (setStationWork s).state := by
  have hset : s.KeepsPool (s.setStation s.latch.arg0.toNat (s.configuredEntry s.latch)) :=
    .of_pool (s.setStation_pool _ _)
  unfold setStationWork
  split
  · exact .refl s
  · dsimp only
    split
    · exact hset
    · exact hset.look

/-- GET_STATION (R39). -/
theorem getStationWork_pool (s : State) : (getStationWork s).state.pool = s.pool := by
  unfold getStationWork
  dsimp only
  split <;> rfl

/-- NEXT_CHANGE (R37). -/
theorem nextChangeWork_pool (s : State) : (nextChangeWork s).state.pool = s.pool := by
  unfold nextChangeWork
  split
  · rfl
  · exact s.setStation_pool _ _

/-- The work that a code selects (R174, R176). -/
theorem workOf_poolActs {i : Instr} {code : Byte} (hi : leavesHost i = true → isUnknownCode code = true) (s : State) :
    State.PoolActs i s (workOf code s).state := by
  have hnamed : ∀ {n : Nat}, code.toNat = n → n ≠ 0 → n < 0x11 → leavesHost i = false := fun hn h0 hlt => by
    rw [← Bool.not_eq_true]
    intro hleaves
    have hunknown := hi hleaves
    simp only [isUnknownCode, Bool.or_eq_true, beq_iff_eq, decide_eq_true_eq] at hunknown
    omega
  generalize hwork : workOf code = work
  unfold workOf at hwork
  split at hwork <;> subst hwork
  · exact .keeps (allocateWork_keepsPool s)
  · exact releaseWork_poolActs (hnamed ‹_› (by decide) (by decide)) s
  · exact submitWork_poolActs (hnamed ‹_› (by decide) (by decide)) s
  · exact .keeps (cancelWork_keepsPool s)
  · exact .keeps (takeWork_keepsPool s)
  · exact .keeps (startWork_keepsPool s)
  · exact .of_pool s.stopLine_pool
  · exact .keeps (abortWork_keepsPool s)
  · exact .of_pool (setLineWork_pool s)
  · exact .of_pool (getLineWork_pool s)
  · exact .of_pool (setLimitsWork_pool s)
  · exact .of_pool (getLimitsWork_pool s)
  · exact .keeps (setStationWork_keepsPool s)
  · exact .of_pool (getStationWork_pool s)
  · exact .of_pool (nextChangeWork_pool s)
  · exact .of_pool rfl

/-! ## The rows -/

/-- A write of a command's code (R171, R173). -/
theorem State.hostCommand_poolActs {i : Instr} (s : State) (code : Byte) {work : State → Handled}
    (hwork : ∀ x : State, State.PoolActs i x (work x).state) : State.PoolActs i s (s.hostCommand code work) := by
  rcases s.hostCommand_cases code work with ⟨-, h⟩ | ⟨-, -, h⟩ | ⟨-, -, h⟩ <;> rw [h]
  · exact .of_pool rfl
  · exact .of_pool rfl
  · have hworked : State.PoolActs i s (work (s.handedOver code)).state := (hwork (s.handedOver code)).before rfl rfl
    exact hworked.after rfl rfl

/-- A row that RESET# holds off (R153). -/
theorem State.live_poolActs {i : Instr} {s : State} {f : State → State} (hf : State.PoolActs i s (f s)) :
    State.PoolActs i s (s.live f) := by
  rcases s.live_cases f with ⟨-, h⟩ | ⟨-, h⟩ <;> rw [h]
  · exact .of_pool rfl
  · exact hf

/-- In a pool with every buffer FREE none is QUEUED (R116). -/
theorem State.owner_ne_queued_of_free {s : State} (h : s.owners = List.replicate 64 .free) (b : Nat) :
    s.owner b ≠ some .queued := by
  rw [State.owner, h, List.getElem?_replicate]
  split <;> simp

/-- A write of RESET's code (R154, R173). -/
theorem State.resetCommand_poolActs {i : Instr} (hi : leavesHost i = false) (s : State) :
    State.PoolActs i s s.resetCommand := by
  unfold State.resetCommand
  split
  · exact .of_pool rfl
  · split
    · exact .empties hi (State.owner_ne_queued_of_free rfl)
    all_goals exact .of_pool rfl

/-- A write of any code to COMMAND (R171, R173, R174). -/
theorem State.writeCommand_poolActs {i : Instr} {code : Byte} (hi : leavesHost i = true → isUnknownCode code = true)
    (s : State) : State.PoolActs i s (s.writeCommand code) := by
  unfold State.writeCommand
  split
  · rename_i hcode
    subst hcode
    exact State.resetCommand_poolActs (Bool.eq_false_iff.2 fun hleaves => absurd (hi hleaves) (by decide)) s
  · exact s.hostCommand_poolActs code (workOf_poolActs hi)

/-- The end of initialisation forms the free list (R125, R155). -/
theorem State.endInitialisation_poolActs (s : State) : State.PoolActs .initialisationEnd s s.endInitialisation := by
  unfold State.endInitialisation
  split
  · exact .empties rfl (State.owner_ne_queued_of_free rfl)
  all_goals exact .of_pool rfl

/-- A read of BUF_DATA (R121). -/
theorem State.readBufData_pool (s : State) : s.readBufData.pool = s.pool := by
  unfold State.readBufData
  split <;> rfl

/-- A write of BUF_DATA goes into a HOST buffer (R121). -/
theorem State.writeBufData_keepsPool (s : State) (value : Byte) : s.KeepsPool (s.writeBufData value) := by
  unfold State.writeBufData
  split
  · rename_i hmay
    obtain ⟨-, hhost⟩ := s.mayWrite_iff.1 hmay
    refine ⟨.of_eq (by simp) (by simp), fun _ b hb => ?_⟩
    have hqueued : s.owner b = some .queued := by simpa [State.owner] using hb
    refine ⟨hqueued, fun i hi => State.bufferByte_writeBuffer_other value s.bufOffset.isLt hi (.inl ?_)⟩
    rintro rfl
    simp [hhost] at hqueued
  · exact .of_pool rfl

/-- A write to a register with no row of its own (R167, R171). -/
theorem State.hostWrite_poolActs (s : State) (offset : Offset) (value : Byte) :
    State.PoolActs (.registerWrite offset value) s (s.hostWrite offset value) := by
  unfold State.hostWrite
  split
  case h_5 hoffset =>
    have hnamed : leavesHost (.registerWrite offset value) ≠ true := by simp [leavesHost, isPlainOffset, hoffset]
    exact s.writeCommand_poolActs fun hleaves => absurd hleaves hnamed
  case h_8 => exact .keeps (s.writeBufData_keepsPool value)
  case h_9 => split <;> exact .of_pool rfl
  all_goals exact .of_pool rfl

/-- A delivered character (R4). -/
theorem State.takeCharacter_poolActs (i : Instr) (s : State) (d : Delivered) :
    State.PoolActs i s (s.takeCharacter d) := by
  have hunasked : State.PoolActs i s (s.unaskedCharacter d) := by
    unfold State.unaskedCharacter State.reloadQuiet
    split
    · exact .of_pool rfl
    · split <;> exact .of_pool rfl
  unfold State.takeCharacter
  split
  · unfold State.echoCheck
    split
    · split
      · exact .of_pool rfl
      · exact .keeps s.collide_keepsPool
    all_goals exact .keeps s.collide_keepsPool
  · split
    · unfold State.stoppedCharacter
      split <;> exact .of_pool rfl
    · split
      · exact hunasked
      · exact hunasked
      · exact hunasked
      · exact .receives (s.beginReception_receives.trans (State.answerCharacter_receives _ d))
      · exact .receives (s.answerCharacter_receives d)
      · unfold State.lateCharacter
        split
        · exact .of_pool rfl
        · dsimp only
          split
          · exact .of_pool rfl
          · exact .of_pool (s.setStation_pool _ _)
      · exact .of_pool rfl

/-- The receiver takes a stop bit (R4, R106). -/
theorem State.deliver_poolActs (i : Instr) (s : State) (data : Byte) (mark parity stop : Bool) :
    State.PoolActs i s (s.deliver data mark parity stop) := by
  unfold State.deliver State.holdSpace
  split
  · split
    · dsimp only
      split
      · exact .before (.receives (State.beginReception_receives _)) rfl rfl
      · exact .of_pool rfl
    · exact (State.takeCharacter_poolActs i _ _).before rfl rfl
  · exact .of_pool rfl

/-- A confirmed start bit (R4, R93). -/
theorem State.startCharacter_poolActs (i : Instr) (s : State) : State.PoolActs i s s.startCharacter := by
  unfold State.startCharacter
  split
  · dsimp only
    split
    · exact .before (.receives (State.beginReception_receives _)) rfl rfl
    · exact .of_pool rfl
  · exact .of_pool rfl

/-- The end of a held-back space (R106). -/
theorem State.releaseSpace_poolActs (i : Instr) (s : State) : State.PoolActs i s s.releaseSpace := by
  unfold State.releaseSpace
  split
  · exact (State.takeCharacter_poolActs i _ _).before rfl rfl
  · exact .of_pool rfl

/-- A break is detected (R106, R107). -/
theorem State.detectBreak_poolActs (i : Instr) (s : State) : State.PoolActs i s s.detectBreak := by
  unfold State.detectBreak
  split
  · exact .of_pool rfl
  · dsimp only
    split
    · exact .before (.keeps (State.collide_keepsPool _)) rfl rfl
    · exact .before (.receives ((State.beginReception_receives _).trans (State.breakReception_receives _))) rfl rfl
    · exact .before (.receives (State.breakReception_receives _)) rfl rfl
    all_goals exact .of_pool rfl

/-- A verdict takes effect, and then a change that spares HOST and QUEUED buffers (R99). -/
theorem State.takeVerdict_poolActs {i : Instr} {s t : State} (h : s.takeVerdict.KeepsPool t) :
    State.PoolActs i s t :=
  .passes s.takeVerdict_memory s.takeVerdict_sparesHost h

/-- A break ends (R107). -/
theorem State.endBreak_poolActs (i : Instr) (s : State) : State.PoolActs i s s.endBreak := by
  have hdecided : State.PoolActs i s
      (State.takeVerdict { s with receiver := Receiver.ready }).enterHoldoff.endDrain :=
    .before (s' := { s with receiver := Receiver.ready })
      (State.takeVerdict_poolActs (.of_pool (State.endDrain_pool _))) rfl rfl
  unfold State.endBreak
  split
  · dsimp only
    split
    · exact .of_pool rfl
    · split
      · exact .of_pool rfl
      · exact .of_pool rfl
      · exact .of_pool rfl
      · exact hdecided
      · exact hdecided
      · exact .before (.keeps (State.collide_keepsPool _)) rfl rfl
      · exact .of_pool rfl
  · exact .of_pool rfl

/-- The settle timer (R99, R101, R102). -/
theorem State.settleEnd_poolActs (i : Instr) (s : State) : State.PoolActs i s s.settleEnd := by
  unfold State.settleEnd
  split
  · dsimp only
    split
    · exact State.takeVerdict_poolActs (.of_pool rfl)
    · have hidle : s.takeVerdict.KeepsPool s.takeVerdict.enterIdle := .of_pool rfl
      exact State.takeVerdict_poolActs (hidle.andPool (State.endDrain_pool _)).look
  · exact .of_pool rfl

/-- The first start bit of a call (R89). -/
@[simp] theorem State.beginCall_pool (s : State) : s.beginCall.pool = s.pool := by
  cases hc : s.context with
  | none => simp only [State.beginCall, hc]
  | some c => rw [State.beginCall_eq hc rfl]; rfl

/-- The expiry of GAP's timer (R88). -/
theorem State.telegramGapEnd_pool (s : State) : s.telegramGapEnd.pool = s.pool := by
  unfold State.telegramGapEnd State.enterCalling
  split
  · dsimp only
    split
    · exact State.beginCall_pool _
    · rfl
  · rfl

/-- The expiry of the DE lead timer (R89). -/
theorem State.deLeadEnd_pool (s : State) : s.deLeadEnd.pool = s.pool := by
  unfold State.deLeadEnd
  split
  · exact s.beginCall_pool
  · rfl

/-- The expiry of the DE trail timer (R89). -/
theorem State.deTrailEnd_pool (s : State) : s.deTrailEnd.pool = s.pool := by
  unfold State.deTrailEnd
  split
  · rw [State.completeCall_frame]
    rfl
  · rfl

/-- The end of a sent character (R89). -/
theorem State.sendNext_pool (s : State) (place : Nat) : (s.sendNext place).pool = s.pool := by
  rw [State.sendNext_frame]
  rfl

/-- The answer timer (R93). -/
theorem State.answerTimerEnd_pool (s : State) : s.answerTimerEnd.pool = s.pool := by
  unfold State.answerTimerEnd
  split <;> rfl

/-- The character-gap timer (R96, R97). -/
theorem State.characterGapEnd_pool (s : State) : s.characterGapEnd.pool = s.pool := by
  unfold State.characterGapEnd
  split <;> rfl

/-- The holdoff timer (R105). -/
theorem State.holdoffEnd_keepsPool (s : State) : s.KeepsPool s.holdoffEnd := by
  have hidle : s.KeepsPool s.enterIdle := .of_pool rfl
  unfold State.holdoffEnd
  split
  · split
    · exact .of_pool rfl
    · exact hidle.look
  · exact .refl s

/-- A 10 ms tick (R71). -/
@[simp] theorem State.tick10_pool (s : State) : s.tick10.pool = s.pool := by
  rw [State.tick10_frame]
  rfl

/-- A 100 ms tick (R72). -/
@[simp] theorem State.tick100_pool (s : State) : s.tick100.pool = s.pool := by
  rw [State.tick100_frame]
  rfl

/-- A station that falls due for a poll (R71). -/
theorem State.pollFallsDue_keepsPool (s : State) (a : Nat) : s.KeepsPool (s.pollFallsDue a) := by
  unfold State.pollFallsDue
  split
  · exact s.look_keepsPool
  · exact .refl s

/-- A station that falls due for a probe (R72). -/
theorem State.probeFallsDue_keepsPool (s : State) (a : Nat) : s.KeepsPool (s.probeFallsDue a) := by
  unfold State.probeFallsDue
  split
  · exact s.look_keepsPool
  · exact .refl s

/-- The holds that end (R67). -/
theorem State.endHolds_keepsPool (s : State) : s.KeepsPool s.endHolds := by
  unfold State.endHolds
  split
  · exact State.KeepsPool.look (.of_pool rfl)
  · exact .refl s

/-- The completion of a command (R172). -/
theorem State.completeCommand_pool (s : State) : s.completeCommand.pool = s.pool := by
  unfold State.completeCommand
  split <;> rfl

/-- The return to mark after a framing failure (R4). -/
theorem State.returnToMark_pool (s : State) : s.returnToMark.pool = s.pool := by
  unfold State.returnToMark
  split <;> rfl

/-- Every row makes one act on the pool. -/
theorem exec_poolActs {i : Instr} {s t : State} (h : exec i s = .next t) : State.PoolActs i s t := by
  cases i <;> cases h
  case allocate => exact s.hostCommand_poolActs _ fun x => .keeps (allocateWork_keepsPool x)
  case release => exact s.hostCommand_poolActs _ (releaseWork_poolActs rfl)
  case submit => exact s.hostCommand_poolActs _ (submitWork_poolActs rfl)
  case cancel => exact s.hostCommand_poolActs _ fun x => .keeps (cancelWork_keepsPool x)
  case take => exact s.hostCommand_poolActs _ fun x => .keeps (takeWork_keepsPool x)
  case start => exact s.hostCommand_poolActs _ fun x => .keeps (startWork_keepsPool x)
  case stop => exact s.hostCommand_poolActs (work := stopWork) _ fun x => .of_pool x.stopLine_pool
  case abort => exact s.hostCommand_poolActs _ fun x => .keeps (abortWork_keepsPool x)
  case setLine => exact s.hostCommand_poolActs _ fun x => .of_pool (setLineWork_pool x)
  case getLine => exact s.hostCommand_poolActs _ fun x => .of_pool (getLineWork_pool x)
  case setLimits => exact s.hostCommand_poolActs _ fun x => .of_pool (setLimitsWork_pool x)
  case getLimits => exact s.hostCommand_poolActs _ fun x => .of_pool (getLimitsWork_pool x)
  case setStation => exact s.hostCommand_poolActs _ fun x => .keeps (setStationWork_keepsPool x)
  case getStation => exact s.hostCommand_poolActs _ fun x => .of_pool (getStationWork_pool x)
  case nextChange => exact s.hostCommand_poolActs _ fun x => .of_pool (nextChangeWork_pool x)
  case reset => exact s.resetCommand_poolActs rfl
  case unknownCommand code => exact s.writeCommand_poolActs id
  case discardedCommandWrite code => exact s.writeCommand_poolActs (i := .discardedCommandWrite code) nofun
  case commandCompletion => exact State.live_poolActs (.of_pool s.completeCommand_pool)
  case eventsWrite bank value => exact State.live_poolActs (.of_pool rfl)
  case enableWrite bank value => cases bank <;> exact State.live_poolActs (.of_pool rfl)
  case bufSelectWrite value => exact State.live_poolActs (.of_pool rfl)
  case bufOffsetWrite value => exact State.live_poolActs (.of_pool rfl)
  case bufDataRead => exact State.live_poolActs (.of_pool s.readBufData_pool)
  case bufDataWrite value => exact State.live_poolActs (.keeps (s.writeBufData_keepsPool value))
  case timeLoRead => exact State.live_poolActs (.of_pool rfl)
  case registerWrite offset value => exact State.live_poolActs (s.hostWrite_poolActs offset value)
  case resetAssert => exact .empties rfl (State.owner_ne_queued_of_free rfl)
  case resetRelease => exact .of_pool rfl
  case powerOn => exact .empties rfl (State.owner_ne_queued_of_free rfl)
  case initialisationEnd => exact State.live_poolActs s.endInitialisation_poolActs
  case characterDelivered d m p st => exact State.live_poolActs (s.deliver_poolActs _ d m p st)
  case confirmedStartBit => exact State.live_poolActs (s.startCharacter_poolActs _)
  case spaceCharacter => exact State.live_poolActs (s.releaseSpace_poolActs _)
  case breakDetected => exact State.live_poolActs (s.detectBreak_poolActs _)
  case breakEnd => exact State.live_poolActs (s.endBreak_poolActs _)
  case telegramGapExpiry => exact State.live_poolActs (.of_pool s.telegramGapEnd_pool)
  case deLeadExpiry => exact State.live_poolActs (.of_pool s.deLeadEnd_pool)
  case deTrailExpiry => exact State.live_poolActs (.of_pool s.deTrailEnd_pool)
  case echoMissing =>
    refine State.live_poolActs ?_
    split
    · exact .keeps s.collide_keepsPool
    all_goals exact .of_pool rfl
  case characterSent =>
    refine State.live_poolActs ?_
    split
    · exact .of_pool (s.sendNext_pool _)
    all_goals exact .of_pool rfl
  case answerTimerExpiry => exact State.live_poolActs (.of_pool s.answerTimerEnd_pool)
  case characterGapExpiry => exact State.live_poolActs (.of_pool s.characterGapEnd_pool)
  case settleTimerExpiry => exact State.live_poolActs (s.settleEnd_poolActs _)
  case holdoffExpiry => exact State.live_poolActs (.keeps s.holdoffEnd_keepsPool)
  case timeCounterTick =>
    exact State.live_poolActs (.of_pool ((State.tick100_pool s.tick10).trans s.tick10_pool))
  case tenMsTick => exact State.live_poolActs (.of_pool s.tick10_pool)
  case hundredMsTick => exact State.live_poolActs (.of_pool s.tick100_pool)
  case pollCountdownExpiry a => exact State.live_poolActs (.keeps (s.pollFallsDue_keepsPool a))
  case probeCountdownExpiry a => exact State.live_poolActs (.keeps (s.probeFallsDue_keepsPool a))
  case holdEnd => exact State.live_poolActs (.keeps s.endHolds_keepsPool)
  case rxdReturnToMark => exact State.live_poolActs (.of_pool s.returnToMark_pool)

/-- The rows that R118 leaves out are those that may take a buffer from the host. -/
theorem leavesHost_of_ne {i : Instr} (hwf : i.wellFormed = true) (hsubmit : i ≠ .submit) (hrelease : i ≠ .release)
    (hreset : i ≠ .reset) (hassert : i ≠ .resetAssert) (hpower : i ≠ .powerOn) (hend : i ≠ .initialisationEnd)
    (hwrite : ∀ code : Byte, i ≠ .discardedCommandWrite code) : leavesHost i = true := by
  cases i
  case unknownCommand code => exact hwf
  case registerWrite offset value => exact hwf
  case submit => exact absurd rfl hsubmit
  case release => exact absurd rfl hrelease
  case reset => exact absurd rfl hreset
  case resetAssert => exact absurd rfl hassert
  case powerOn => exact absurd rfl hpower
  case initialisationEnd => exact absurd rfl hend
  case discardedCommandWrite code => exact absurd rfl (hwrite code)
  all_goals rfl

/-- Settles O10: both clauses hold of every act on the pool. -/
theorem buffersKeptForTheirHolders : Obligations.BuffersKeptForTheirHolders := by
  refine ⟨fun c s t b hwf hok hb hexec hsubmit hrelease hreset hassert hpower hend hwrite => ?_,
    fun c s t b i hok _ hi hs hexec ht => (exec_poolActs hexec).bytes_queued hok hs ht hi⟩
  exact (exec_poolActs hexec).owner_host
    (leavesHost_of_ne hwf hsubmit hrelease hreset hassert hpower hend hwrite) hok hb

end Sys2Proof.Machine
end

section
/-! SUPPORT. The host window and the bus port: the rows of the accesses, the argument registers, and what the pins do. -/

namespace Sys2Proof.Machine

/-! ## Accesses and their rows (section 10.2) -/

/-- The row that a code selects writes that code to COMMAND (R176). -/
theorem exec_commandOfCode (code : Byte) (s : State) : exec (commandOfCode code) s = .next (s.writeCommand code) := by
  have hcode : code = BitVec.ofNat 8 code.toNat := (byteOf_toNat code).symm
  unfold commandOfCode
  split
  case h_17 => rfl
  all_goals
    rename_i h
    rw [h] at hcode
    subst hcode
    rfl

/-- The row of a read makes the read access (R168). -/
theorem exec_hostReadRow {s : State} (hlive : s.resetHeld = false) {o : Offset} {c : Instr}
    (h : hostReadRow o = some c) : exec c s = .next (s.hostRead o) := by
  unfold hostReadRow at h
  split at h
  · rename_i ho
    obtain rfl := Option.some.inj h
    rw [exec_of_live rfl hlive, State.hostRead, ho]
    rfl
  · rename_i ho
    obtain rfl := Option.some.inj h
    rw [exec_of_live rfl hlive, State.hostRead, ho]
    rfl
  · cases h

/-- The offsets without a row of their own are all but BUF_DATA and TIME_LO (R168). -/
theorem toNat_ne_of_no_row {o : Offset} (h : hostReadRow o = none) : o.toNat ≠ 0x16 ∧ o.toNat ≠ 0x1A := by
  constructor
  all_goals
    intro ho
    simp [hostReadRow, ho] at h

/-- A read without a row of its own only drives the register's value (R166). -/
theorem State.hostRead_of_no_row {s : State} {o : Offset} (h : hostReadRow o = none) :
    s.hostRead o = { s with readData := s.registerValue o } := by
  obtain ⟨hdata, htime⟩ := toNat_ne_of_no_row h
  unfold State.hostRead
  split
  · exact absurd ‹_› hdata
  · exact absurd ‹_› htime
  · rfl

/-- The row of a write makes the write access (R171, R173). -/
theorem exec_hostWriteRow {s : State} (hlive : s.resetHeld = false) (o : Offset) (value : Byte) :
    exec (hostWriteRow (s.unit != .ready) o value) s = .next (s.hostWrite o value) := by
  unfold hostWriteRow
  split
  case h_5 ho =>
    have hwrite : s.hostWrite o value = s.writeCommand value := by simp only [State.hostWrite, ho]
    rw [hwrite]
    split
    · rfl
    · exact exec_commandOfCode value s
  case h_9 => exact exec_of_live (f := (·.hostWrite o value)) rfl hlive
  all_goals
    rename_i ho
    rw [exec_of_live rfl hlive, State.hostWrite, ho]
    rfl

/-! ## The argument registers (R170, R171) -/

/-- An argument byte after a write to one of them (R171). -/
theorem Args.get_set (a : Args) (i j : Nat) (v : Byte) (h : i < 8) :
    (a.set i v).get j = if j = i then v else a.get j := by
  interval_cases i
  all_goals
    simp only [Args.set, Args.get]
    split <;> simp_all

/-- A write to an argument register (R171). -/
theorem State.hostWrite_arg (s : State) {o : Offset} (value : Byte) (hlow : 8 ≤ o.toNat) (hhigh : o.toNat ≤ 15) :
    s.hostWrite o value = { s with args := s.args.set (o.toNat - 8) value } := by
  unfold State.hostWrite
  split
  case h_9 => exact if_pos ⟨hlow, hhigh⟩
  all_goals omega

/-- A write to an offset that neither a row of its own nor an argument takes is ignored (R167). -/
theorem State.hostWrite_ignored (s : State) {o : Offset} (value : Byte) (hplain : isPlainOffset o = true)
    (h : o.toNat < 8 ∨ 15 < o.toNat) : s.hostWrite o value = s := by
  unfold State.hostWrite
  split
  case h_9 => exact if_neg (by omega)
  all_goals simp_all [isPlainOffset]

/-- An argument register reads its byte (R170). -/
theorem State.registerValue_arg (s : State) {o : Offset} (hlow : 8 ≤ o.toNat) (hhigh : o.toNat ≤ 15) :
    s.registerValue o = s.args.get (o.toNat - 8) := by
  unfold State.registerValue
  split
  case h_22 => exact if_pos ⟨hlow, hhigh⟩
  all_goals omega

/-- No other register shows an argument (section 10.2). -/
theorem State.registerValue_of_args (s : State) (a : Args) {o : Offset} (h : ¬(8 ≤ o.toNat ∧ o.toNat ≤ 15)) :
    ({ s with args := a } : State).registerValue o = s.registerValue o := by
  unfold State.registerValue
  split
  case h_22 => rw [if_neg h, if_neg h]
  all_goals rfl

/-- After a write to an argument register it alone reads otherwise (R171). -/
theorem State.registerValue_write_arg (s : State) {o : Offset} (value : Byte) (hlow : 8 ≤ o.toNat)
    (hhigh : o.toNat ≤ 15) (o' : Offset) :
    ({ s with args := s.args.set (o.toNat - 8) value } : State).registerValue o' =
      if o' = o then value else s.registerValue o' := by
  by_cases h : 8 ≤ o'.toNat ∧ o'.toNat ≤ 15
  · have hplace : o'.toNat - 8 = o.toNat - 8 ↔ o' = o := by
      rw [← BitVec.toNat_inj]
      omega
    rw [State.registerValue_arg _ h.1 h.2, State.registerValue_arg _ h.1 h.2, Args.get_set _ _ _ _ (by omega)]
    exact if_congr hplace rfl rfl
  · have hne : o' ≠ o := by
      rintro rfl
      exact h ⟨hlow, hhigh⟩
    rw [State.registerValue_of_args s _ h, if_neg hne]

/-- The same of what a read access drives (R166, R171). -/
theorem State.readRegister_write_arg {s : State} (hlive : s.resetHeld = false) {o : Offset} (value : Byte)
    (hlow : 8 ≤ o.toNat) (hhigh : o.toNat ≤ 15) (o' : Offset) :
    ({ s with args := s.args.set (o.toNat - 8) value } : State).readRegister o' =
      if o' = o then some value else s.readRegister o' := by
  have hread := State.readRegister_of_live (s := { s with args := s.args.set (o.toNat - 8) value }) hlive o'
  rw [hread, s.registerValue_write_arg value hlow hhigh, State.readRegister_of_live hlive]
  exact apply_ite some ..

/-! ## The port (R166) -/

/-- A register shows nothing of the port but, in the latched flags, whether a write is in progress (R158). -/
theorem State.registerValue_of_port {s : State} {q : Port} (hs : ∀ standing : Events, s.port.access ≠ .write standing)
    (hq : ∀ standing : Events, q.access ≠ .write standing) (o : Offset) :
    ({ s with port := q } : State).registerValue o = s.registerValue o := by
  have hflags : ({ s with port := q } : State).flags = s.flags :=
    (State.flags_of_not_write (s := { s with port := q }) hq).trans (State.flags_of_not_write hs).symm
  unfold State.registerValue
  split
  case h_3 =>
    unfold State.eventsA
    rw [hflags]
    rfl
  case h_4 =>
    unfold State.eventsB
    rw [hflags]
  all_goals rfl

/-- With no access in progress, an armed port and one strobe low begin an access, and anything else only moves the
levels. -/
theorem State.pinChange_of_none {s : State} {p : Pins} {armed : Bool} (hlive : s.resetHeld = false)
    (haccess : s.port.access = .none) (harmed : (s.port.armed || s.port.falls p) = armed) :
    s.pinChange p =
      if armed && p.oneStrobe then if p.wr then s.beginRead p else s.beginWrite p
      else { s with port := p.quiet armed } := by
  simp [State.pinChange, hlive, haccess, harmed]

/-- A fall of CS#, or of a strobe while CS# is low, arms the port (R166). -/
theorem Port.armed_or_falls_iff (q : Port) (p : Pins) :
    (q.armed || q.falls p) = true ↔ q.armed = true ∨
      (p.cs = false ∧ (q.cs = true ∨ (q.rd = true ∧ p.rd = false) ∨ (q.wr = true ∧ p.wr = false))) := by
  simp [Port.falls, or_assoc]

/-- During a read only its end is seen (R166). -/
theorem State.pinChange_of_read {s : State} (p : Pins) (hlive : s.resetHeld = false) (haccess : s.port.access = .read) :
    s.pinChange p =
      { s with port := ⟨p.cs, p.rd, p.wr, false, if p.cs = true ∨ p.rd = true then .none else .read⟩ } := by
  simp only [State.pinChange, hlive, haccess, Bool.or_eq_true, Bool.false_eq_true, if_false]
  split <;> rfl

/-- During a write only its end is seen (R166). -/
theorem State.pinChange_of_write {s : State} {standing : Events} (p : Pins) (hlive : s.resetHeld = false)
    (haccess : s.port.access = .write standing) :
    s.pinChange p =
      if p.cs = true ∨ p.wr = true then s.endWrite standing p
      else { s with port := p.during (.write standing) } := by
  simp only [State.pinChange, hlive, haccess, Bool.or_eq_true, Bool.false_eq_true, if_false]

/-- The part drives the data pins in a read alone (R166). -/
theorem State.busDrive_of_live {s : State} (hlive : s.resetHeld = false) :
    s.busDrive = if s.port.access = .read then some s.readData else none := by
  unfold State.busDrive
  rw [if_neg (by simp [hlive])]
  split <;> simp [*]

/-- The levels of the pins, taken from a beginning access. -/
theorem Pins.during_eq {p : Pins} {cs rd wr : Bool} (hcs : p.cs = cs) (hrd : p.rd = rd) (hwr : p.wr = wr)
    (access : PortAccess) : p.during access = ⟨cs, rd, wr, false, access⟩ := by
  rw [← hcs, ← hrd, ← hwr]
  rfl

/-- The low four bits of a byte as a number (R163). -/
theorem and_low_four_eq (value : Byte) : value &&& 0x0F = BitVec.ofNat 8 (value.toNat % 16) := by
  apply BitVec.eq_of_toNat_eq
  have hmask : value.toNat &&& (2 ^ 4 - 1) = value.toNat % 2 ^ 4 := Nat.and_two_pow_sub_one_eq_mod ..
  have hsmall := Nat.mod_lt value.toNat (show 16 > 0 by decide)
  simpa [Nat.mod_eq_of_lt (show value.toNat % 16 < 256 by omega)] using hmask

/-- Without one low strobe on an armed port nothing begins (R166). -/
theorem Pins.not_oneStrobe {p : Pins} {armed : Bool} (h : armed = false ∨ p.cs = true ∨ p.rd = p.wr) :
    (armed && p.oneStrobe) = false := by
  rw [Bool.and_eq_false_iff, Pins.oneStrobe, Bool.and_eq_false_iff, Bool.not_eq_false', bne_eq_false_iff_eq]
  exact h

/-- One low strobe with CS# low (R166). -/
theorem Pins.oneStrobe_of_levels {p : Pins} (hcs : p.cs = false) (hne : p.rd ≠ p.wr) : p.oneStrobe = true := by
  rw [Pins.oneStrobe, hcs, Bool.not_false, Bool.true_and, bne_iff_ne]
  exact hne

/-- A read begins: it is taken there, as its row (R166, R168). -/
theorem State.pinChange_begins_read {s : State} {p : Pins} (hlive : s.resetHeld = false)
    (haccess : s.port.access = .none) (harmed : (s.port.armed || s.port.falls p) = true) (hcs : p.cs = false)
    (hrd : p.rd = false) (hwr : p.wr = true) :
    s.pinChange p = ({ s with port := ⟨false, false, true, false, .read⟩ } : State).hostRead p.address := by
  rw [State.pinChange_of_none hlive haccess harmed, Pins.oneStrobe_of_levels hcs (by simp [hrd, hwr]), Bool.true_and,
    if_pos rfl, if_pos hwr, State.beginRead, Pins.during_eq hcs hrd hwr]

/-- A write begins: raises are held back from here on (R158, R166). -/
theorem State.pinChange_begins_write {s : State} {p : Pins} (hlive : s.resetHeld = false)
    (haccess : s.port.access = .none) (harmed : (s.port.armed || s.port.falls p) = true) (hcs : p.cs = false)
    (hrd : p.rd = true) (hwr : p.wr = false) :
    s.pinChange p = { s with port := ⟨false, true, false, false, .write s.events⟩, events := Events.clear } := by
  rw [State.pinChange_of_none hlive haccess harmed, Pins.oneStrobe_of_levels hcs (by simp [hrd, hwr]), Bool.true_and,
    if_pos rfl, if_neg (by simp [hwr]), State.beginWrite, Pins.during_eq hcs hrd hwr]

/-- A write ends: it is taken there, as its row, the raises held back applied (R158, R166). -/
theorem State.pinChange_ends_write {s : State} {standing merged : Events} {p : Pins} (hlive : s.resetHeld = false)
    (haccess : s.port.access = .write standing) (hends : p.cs = true ∨ p.wr = true) (ha : p.address ≠ 0x02)
    (hb : p.address ≠ 0x03) (hmerged : ∀ f : LatchedFlag, merged.get f = (standing.get f || s.events.get f)) :
    exec (hostWriteRow (s.unit != .ready) p.address p.data)
      { s with port := ⟨p.cs, p.rd, p.wr, false, .none⟩, events := merged } = .next (s.pinChange p) := by
  have hevents : merged = standing.merge s.events :=
    Events.ext_get fun f => (hmerged f).trans (Events.get_merge standing s.events f).symm
  rw [State.pinChange_of_write p hlive haccess, if_pos hends, State.endWrite_eq_hostWrite s standing ha hb, hevents]
  exact exec_hostWriteRow (s := { s with port := p.quiet false, events := standing.merge s.events }) hlive _ _

/-- Settles O34: the rows that write one register, then the changes of the pins by the access in progress. -/
theorem windowRegisterAccesses : Obligations.WindowRegisterAccesses := by
  intro s value hlive
  refine ⟨exec_of_live (f := (·.writeEnable .a value)) rfl hlive, ?_,
    exec_of_live (f := (·.writeBufSelect value)) rfl hlive, ?_, ?_,
    fun o hplain => ⟨fun hlow hhigh => ?_, fun hother => ?_⟩, fun p armed harmed => ?_⟩
  · rw [exec_of_live (f := (·.writeEnable .b value)) rfl hlive, ← and_low_four_eq]
    rfl
  · have hoffset : value.setWidth 5 = BitVec.ofNat 5 (value.toNat % 32) := BitVec.eq_of_toNat_eq (by simp)
    rw [exec_of_live (f := (·.writeBufOffset value)) rfl hlive, ← hoffset]
    rfl
  · have hlowByte : timeLow s.timeCounter = BitVec.ofNat 8 (s.timeCounter.toNat % 256) := s.registerValue_timeLow
    have hhighByte : timeHigh s.timeCounter = BitVec.ofNat 8 (s.timeCounter.toNat / 256) := by
      rw [← timeHigh_toNat]
      exact (byteOf_toNat _).symm
    rw [exec_of_live (f := State.readTimeLow) rfl hlive, State.readTimeLow, hlowByte, hhighByte]
  · have hwritten := State.readRegister_write_arg hlive value hlow hhigh
    rw [exec_of_live (f := (·.hostWrite o value)) rfl hlive, s.hostWrite_arg value hlow hhigh]
    exact ⟨_, rfl, rfl, (hwritten o).trans (if_pos rfl), fun o' hne => (hwritten o').trans (if_neg hne)⟩
  · rw [exec_of_live (f := (·.hostWrite o value)) rfl hlive, s.hostWrite_ignored value hplain hother]
  · have harms : (s.port.armed || s.port.falls p) = armed :=
      Bool.eq_iff_iff.2 ((s.port.armed_or_falls_iff p).trans harmed.symm)
    have hdrive := State.busDrive_of_live hlive
    refine ⟨fun hnone => ⟨fun hquiet => ?_, fun harm hcs hrd hwr => ?_, fun harm hcs hrd hwr => ?_⟩,
      fun hread => ⟨hdrive.trans (if_pos hread), State.pinChange_of_read p hlive hread⟩,
      fun hread => hdrive.trans (if_neg hread), fun standing hwrite => ⟨fun hcs hwr => ?_, fun merged hends ha hb =>
        State.pinChange_ends_write hlive hwrite hends ha hb⟩⟩
    · rw [State.pinChange_of_none hlive hnone harms, Pins.not_oneStrobe hquiet]
      rfl
    · rw [State.pinChange_begins_read hlive hnone (harms.trans harm) hcs hrd hwr]
      refine ⟨fun c hrow => exec_hostReadRow (s := { s with port := ⟨false, false, true, false, .read⟩ }) hlive hrow,
        fun read hrow hvalue => ?_⟩
      have hshown := State.registerValue_of_port (s := s) (q := ⟨false, false, true, false, .read⟩) (by simp [hnone])
        nofun p.address
      rw [State.readRegister_of_live hlive, Option.some.injEq] at hvalue
      rw [State.hostRead_of_no_row hrow, hshown, hvalue]
    · exact State.pinChange_begins_write hlive hnone (harms.trans harm) hcs hrd hwr
    · rw [State.pinChange_of_write p hlive hwrite, if_neg (by simp [hcs, hwr])]
      rfl

end Sys2Proof.Machine
end

section
/-! SUPPORT. The Result Queue: TAKE, and what the shared operations add behind the records. -/

namespace Sys2Proof.Machine

/-! ## TAKE (R135, R136) -/

/-- TAKE of an empty queue changes nothing (R135). -/
theorem takeWork_of_nil {s : State} (h : s.results = []) :
    takeWork s = { state := s, code := .empty, replies := ⟨0, 0, 0xFF, 0⟩ } := by
  simp only [takeWork, h]
  rfl

/-- TAKE hands over the head record, whose buffer passes from RESULT to HOST, and the Dispatcher looks (R136). -/
theorem takeWork_of_cons {s : State} {r : ResultRecord} {rest : List ResultRecord} (h : s.results = r :: rest) :
    takeWork s =
      { state :=
          (({ s with results := rest, taken := Taken.ofRecord r } : State).changeOwner? r.buffer .result .host).look
        code := .ok
        replies := ⟨byteOf r.ticket, byteOf r.outcome.code, showBuffer r.buffer, byteOf rest.length⟩ } := by
  simp only [takeWork, h]

/-- The outcome of a record is shown by its code (R128). -/
theorem byteOf_outcome_code (o : ResultOutcome) :
    byteOf o.code = (match o with
      | .done => 1 | .refused => 2 | .noAnswer => 3 | .badAnswer => 4 | .stationBusy => 5 | .conflict => 6
      | .cancelled => 7 | .aborted => 8 | .stationOffline => 9 | .stationDisabled => 10) := by
  cases o <;> rfl

/-- Settles O16: by whether the queue holds a record. -/
theorem takeHandsOverHead : Obligations.TakeHandsOverHead := by
  intro s htakes
  have hexec : exec .take s = .next (s.hostCommand 0x05 takeWork) := rfl
  rw [hexec, State.hostCommand_of_takes htakes]
  refine ⟨fun hempty => ?_, fun r rest hresults howner => ?_⟩
  · rw [takeWork_of_nil (s := s.handedOver 0x05) hempty]
  · have hgiven := State.changeOwnerOpt_eq (s := { s.handedOver 0x05 with results := rest, taken := Taken.ofRecord r })
      .host howner
    rw [takeWork_of_cons (s := s.handedOver 0x05) hresults, hgiven, byteOf_outcome_code]
    cases r.buffer <;> rfl

/-! ## Records added behind -/

/-- The records of `s` stand in `t` in their order, and new ones stand behind them (R129, R132). -/
def State.AddsResults (s t : State) : Prop :=
  s.results <+: t.results

/-- No record is added. -/
theorem State.AddsResults.of_eq {s t : State} (h : t.results = s.results) : s.AddsResults t := by
  rw [State.AddsResults, h]

/-- No change. -/
theorem State.AddsResults.refl (s : State) : s.AddsResults s := .of_eq rfl

/-- Two such changes are one. -/
theorem State.AddsResults.trans {s t u : State} (h : s.AddsResults t) (h' : t.AddsResults u) : s.AddsResults u :=
  List.IsPrefix.trans h h'

/-- Such a change, and then one that adds no record. -/
theorem State.AddsResults.andSame {s t u : State} (h : s.AddsResults t) (heq : u.results = t.results) :
    s.AddsResults u :=
  h.trans (.of_eq heq)

/-! ## The shared operations that post -/

/-- A look adds the records of the requests that it completes (R64). -/
theorem State.look_addsResults (s : State) : s.AddsResults s.look := by
  refine State.look_keeps (P := s.AddsResults) (.refl s) (fun x hx => hx.andSame rfl) (fun x hx _ => ?_)
    (fun x r hx _ _ _ _ _ => hx.trans ?_) (fun x r hx _ _ _ _ _ => hx.andSame (x.dispatchRequest_results r))
    (fun x a hx _ _ _ _ _ _ => hx.andSame (x.dispatchPoll_results a))
  · rw [State.stalledLook_frame]
    exact hx.andSame rfl
  · exact ⟨_, (x.completeAtDispatch_results r).symm⟩

/-- Such a change, and then a look (R57). -/
theorem State.AddsResults.look {s t : State} (h : s.AddsResults t) : s.AddsResults t.look :=
  h.trans t.look_addsResults

/-- A look after a change that adds no record. -/
theorem State.AddsResults.of_look {s t : State} (h : t.results = s.results) : s.AddsResults t.look :=
  (State.AddsResults.of_eq h).look

/-- Such a change, and then the end of a drain (R145). -/
theorem State.AddsResults.endDrain {s t : State} (h : s.AddsResults t) : s.AddsResults t.endDrain :=
  h.andSame t.endDrain_results

/-- A closing posts at most one record, at the tail (R102, R132). -/
theorem State.close_addsResults (s : State) (c : Context) (record : Option ResultRecord) (clearSync : Bool) :
    s.AddsResults (s.close c record clearSync) :=
  ⟨_, (s.close_results c record clearSync).symm⟩

/-- An early closing (R52, R80, R91, R146). -/
theorem State.closeEarly_addsResults (s : State) (c : Context) (outcome : ResultOutcome)
    (cancelRequested taken : Bool) : s.AddsResults (s.closeEarly c outcome cancelRequested taken) := by
  obtain ⟨record, clear, heq, -⟩ := s.closeEarly_eq_close c outcome cancelRequested taken
  rw [heq]
  exact s.close_addsResults c record clear

/-- A collision (R91). -/
theorem State.collide_addsResults (s : State) : s.AddsResults s.collide := by
  cases hc : s.context with
  | none => exact .of_eq (by simp only [State.collide, hc])
  | some c =>
    have hheld : s.AddsResults (s.collisionHeld c) := .of_eq rfl
    have hraised : s.AddsResults (s.collisionRaised c) := .of_eq rfl
    by_cases hlimit : 4 ≤ c.collisions + 1
    · rw [State.collide_of_limit hc hlimit]
      exact (hraised.trans (State.closeEarly_addsResults ..)).endDrain
    · cases hcancel : c.cancelPending with
      | true =>
        rw [State.collide_of_cancel hc (by omega) hcancel]
        exact (hheld.trans (State.closeEarly_addsResults ..)).endDrain
      | false =>
        rw [State.collide_of_resend hc (by omega) hcancel]
        exact hheld

/-- A collision after a change that adds no record. -/
theorem State.AddsResults.of_collide {s t : State} (h : t.results = s.results) : s.AddsResults t.collide :=
  (State.AddsResults.of_eq h).trans t.collide_addsResults

/-- The decision on a request posts the record of its ending (R100). -/
theorem State.decideRequest_addsResults (s : State) (c : Context) (v : Verdict) (lost : Bool) :
    s.AddsResults (s.decideRequest c v lost) := by
  rcases s.decideRequest_cases c v lost with ⟨r, heq⟩ | heq | ⟨-, heq⟩ <;> rw [heq]
  · exact s.close_addsResults c _ _
  · exact .of_eq rfl
  · exact .of_eq (by simp [State.busyReturn])

/-- The decision on a poll or a probe posts the record of a new report (R78). -/
theorem State.decidePoll_addsResults (s : State) (c : Context) (v : Verdict) : s.AddsResults (s.decidePoll c v) := by
  obtain ⟨record, placed, hplaced, heq⟩ := s.decidePoll_cases c v
  rw [heq]
  refine State.AddsResults.trans (.of_eq ?_) (placed.close_addsResults c record false)
  rcases hplaced with rfl | ⟨e, rfl⟩
  · rfl
  · exact s.setStation_results c.station e

/-- A verdict takes effect (R99). -/
theorem State.takeVerdict_addsResults (s : State) : s.AddsResults s.takeVerdict := by
  have htold : ∀ (a : Nat) (e : Station), s.AddsResults (s.setStation a e) := fun a e =>
    .of_eq (s.setStation_results a e)
  rcases s.takeVerdict_cases with heq | ⟨c, -, ⟨-, r, heq⟩ | ⟨v, -, -, ⟨-, lost, heq⟩ | ⟨-, heq⟩⟩⟩ <;> rw [heq]
  · exact .refl s
  · exact s.close_addsResults c _ _
  · exact (htold _ _).trans (State.decideRequest_addsResults _ c v lost)
  · exact (htold _ _).trans (State.decidePoll_addsResults _ c v)

end Sys2Proof.Machine
end

section
/-! SUPPORT. What each row of the table does to the Result Queue: every row but TAKE and the resets leaves the records
as they stand and adds new ones behind them. -/

namespace Sys2Proof.Machine

/-! ## The line and its timers -/

/-- The beginning of an answer adds no record (R94). -/
@[simp] theorem State.beginReception_results (s : State) : s.beginReception.results = s.results := by
  rw [State.beginReception_eq]

/-- A character of an answer adds no record (R94). -/
@[simp] theorem State.answerCharacter_results (s : State) (d : Delivered) :
    (s.answerCharacter d).results = s.results := by
  rw [State.answerCharacter_frame]

/-- A break that cuts an answer short adds no record (R107). -/
@[simp] theorem State.breakReception_results (s : State) : s.breakReception.results = s.results := by
  rw [State.breakReception_frame]

/-- A late character adds no record (R98). -/
theorem State.lateCharacter_results (s : State) : s.lateCharacter.results = s.results := by
  unfold State.lateCharacter
  split
  · rfl
  · dsimp only
    split <;> simp

/-- A character that was not asked for adds no record (R104). -/
theorem State.unaskedCharacter_results (s : State) (d : Delivered) : (s.unaskedCharacter d).results = s.results := by
  unfold State.unaskedCharacter State.reloadQuiet
  split
  · rfl
  · split <;> rfl

/-- The echo check posts where it finds the last collision of a transaction (R90, R91). -/
theorem State.echoCheck_addsResults (s : State) (d : Delivered) : s.AddsResults (s.echoCheck d) := by
  unfold State.echoCheck
  split
  · split
    · exact .of_eq rfl
    · exact s.collide_addsResults
  all_goals exact s.collide_addsResults

/-- A delivered character (R4). -/
theorem State.takeCharacter_addsResults (s : State) (d : Delivered) : s.AddsResults (s.takeCharacter d) := by
  unfold State.takeCharacter
  split
  · exact s.echoCheck_addsResults d
  · split
    · unfold State.stoppedCharacter
      split <;> exact .of_eq rfl
    · split
      · exact .of_eq (s.unaskedCharacter_results d)
      · exact .of_eq (s.unaskedCharacter_results d)
      · exact .of_eq (s.unaskedCharacter_results d)
      · exact .of_eq (by simp)
      · exact .of_eq (s.answerCharacter_results d)
      · exact .of_eq s.lateCharacter_results
      · exact .refl s

/-- A character after a change of the receiver (R4). -/
theorem State.receiver_takeCharacter_addsResults (s : State) (r : Receiver) (d : Delivered) :
    s.AddsResults (({ s with receiver := r } : State).takeCharacter d) :=
  State.AddsResults.trans (t := { s with receiver := r }) (.of_eq rfl) (State.takeCharacter_addsResults _ d)

/-- The receiver takes a stop bit (R4, R106). -/
theorem State.deliver_addsResults (s : State) (data : Byte) (mark parity stop : Bool) :
    s.AddsResults (s.deliver data mark parity stop) := by
  unfold State.deliver State.holdSpace
  split
  · split
    · dsimp only
      split
      · exact .of_eq (State.beginReception_results _)
      · exact .of_eq rfl
    · exact s.receiver_takeCharacter_addsResults _ _
  · exact .refl s

/-- A confirmed start bit adds no record (R4, R93). -/
theorem State.startCharacter_results (s : State) : s.startCharacter.results = s.results := by
  unfold State.startCharacter
  split
  · dsimp only
    split
    · exact State.beginReception_results _
    · rfl
  · rfl

/-- The end of a held-back space (R106). -/
theorem State.releaseSpace_addsResults (s : State) : s.AddsResults s.releaseSpace := by
  unfold State.releaseSpace
  split
  · exact s.receiver_takeCharacter_addsResults _ _
  · exact .refl s

/-- A break is detected (R106, R107). -/
theorem State.detectBreak_addsResults (s : State) : s.AddsResults s.detectBreak := by
  unfold State.detectBreak
  split
  · exact .refl s
  · dsimp only
    split
    · exact .of_collide rfl
    · exact .of_eq (by simp)
    · exact .of_eq (by simp)
    all_goals exact .of_eq rfl

/-- A break ends (R107). -/
theorem State.endBreak_addsResults (s : State) : s.AddsResults s.endBreak := by
  have hready : s.AddsResults { s with receiver := Receiver.ready } := .of_eq rfl
  have hdecided : s.AddsResults (State.takeVerdict { s with receiver := Receiver.ready }).enterHoldoff.endDrain :=
    ((hready.trans (State.takeVerdict_addsResults _)).andSame (State.enterHoldoff_results _)).endDrain
  unfold State.endBreak
  split
  · dsimp only
    split
    · exact hready
    · split
      · exact .of_eq rfl
      · exact .of_eq rfl
      · exact .of_eq rfl
      · exact hdecided
      · exact hdecided
      · exact .of_collide rfl
      · exact hready
  · exact .refl s

/-- The first start bit of a call adds no record (R89). -/
@[simp] theorem State.beginCall_results (s : State) : s.beginCall.results = s.results := by
  cases hc : s.context with
  | none => simp only [State.beginCall, hc]
  | some c => rw [State.beginCall_eq hc rfl]; rfl

/-- The expiry of GAP's timer adds no record (R88). -/
theorem State.telegramGapEnd_results (s : State) : s.telegramGapEnd.results = s.results := by
  unfold State.telegramGapEnd State.enterCalling
  split
  · dsimp only
    split
    · exact State.beginCall_results _
    · rfl
  · rfl

/-- The expiry of the DE lead timer adds no record (R89). -/
theorem State.deLeadEnd_results (s : State) : s.deLeadEnd.results = s.results := by
  unfold State.deLeadEnd
  split
  · exact s.beginCall_results
  · rfl

/-- The expiry of the DE trail timer adds no record (R89). -/
theorem State.deTrailEnd_results (s : State) : s.deTrailEnd.results = s.results := by
  unfold State.deTrailEnd
  split
  · rw [State.completeCall_frame]
  · rfl

/-- The end of a sent character adds no record (R89). -/
theorem State.sendNext_results (s : State) (place : Nat) : (s.sendNext place).results = s.results := by
  rw [State.sendNext_frame]

/-- The answer timer adds no record (R93). -/
theorem State.answerTimerEnd_results (s : State) : s.answerTimerEnd.results = s.results := by
  unfold State.answerTimerEnd
  split <;> rfl

/-- The character-gap timer adds no record (R96, R97). -/
theorem State.characterGapEnd_results (s : State) : s.characterGapEnd.results = s.results := by
  unfold State.characterGapEnd
  split <;> rfl

/-- The settle timer (R99, R101, R102). -/
theorem State.settleEnd_addsResults (s : State) : s.AddsResults s.settleEnd := by
  have htaken := s.takeVerdict_addsResults
  unfold State.settleEnd
  split
  · dsimp only
    split
    · exact htaken.andSame (State.enterGap_results _)
    · exact (htaken.andSame (State.enterIdle_results _)).endDrain.look
  · exact .refl s

/-- The holdoff timer (R105). -/
theorem State.holdoffEnd_addsResults (s : State) : s.AddsResults s.holdoffEnd := by
  unfold State.holdoffEnd
  split
  · split
    · exact .of_eq rfl
    · exact .of_look rfl
  · exact .refl s

/-- A station that falls due for a poll (R71). -/
theorem State.pollFallsDue_addsResults (s : State) (a : Nat) : s.AddsResults (s.pollFallsDue a) := by
  unfold State.pollFallsDue
  split
  · exact s.look_addsResults
  · exact .refl s

/-- A station that falls due for a probe (R72). -/
theorem State.probeFallsDue_addsResults (s : State) (a : Nat) : s.AddsResults (s.probeFallsDue a) := by
  unfold State.probeFallsDue
  split
  · exact s.look_addsResults
  · exact .refl s

/-- The holds that end (R67). -/
theorem State.endHolds_addsResults (s : State) : s.AddsResults s.endHolds := by
  unfold State.endHolds
  split
  · exact .of_look rfl
  · exact .refl s

/-- The return to mark after a framing failure adds no record (R4). -/
theorem State.returnToMark_results (s : State) : s.returnToMark.results = s.results := by
  unfold State.returnToMark
  split <;> rfl

/-- The end of initialisation adds no record (R155). -/
theorem State.endInitialisation_results (s : State) : s.endInitialisation.results = s.results := by
  unfold State.endInitialisation
  split <;> rfl

/-! ## The work of the commands -/

/-- ALLOCATE adds no record (R119). -/
theorem allocateWork_results (s : State) : (allocateWork s).state.results = s.results := by
  unfold allocateWork
  split
  · rfl
  · exact s.takeHead_results .host

/-- RELEASE (R119). -/
theorem releaseWork_addsResults (s : State) : s.AddsResults (releaseWork s).state := by
  unfold releaseWork
  dsimp only
  split
  · exact .refl s
  · split
    · exact .of_look (s.changeOwner_results _ .host .free)
    · exact .refl s

/-- SUBMIT (R45 to R48). -/
theorem submitWork_addsResults (s : State) : s.AddsResults (submitWork s).state := by
  unfold submitWork
  split
  · exact .refl s
  · split
    · exact .refl s
    · split
      · exact .refl s
      · exact .of_look (by simp [State.enqueue])

/-- CANCEL of the request in GAP or HOLDOFF (R52). -/
theorem State.cancelWaiting_addsResults (s : State) (c : Context) : s.AddsResults (s.cancelWaiting c) := by
  have hclosed := s.closeEarly_addsResults c .cancelled false true
  unfold State.cancelWaiting
  dsimp only
  split
  · exact (hclosed.andSame (State.enterIdle_results _)).endDrain.look
  · exact hclosed.endDrain

/-- CANCEL (R49 to R53). -/
theorem cancelWork_addsResults (s : State) : s.AddsResults (cancelWork s).state := by
  unfold cancelWork
  dsimp only
  split
  · exact .refl s
  · split
    · exact .of_look (by simp)
    · split
      · exact .refl s
      · split
        · split
          · exact s.cancelWaiting_addsResults _
          · exact .of_eq rfl
        · exact .refl s

/-- TAKE removes the head, if there is one, and adds what its look adds (R136). -/
theorem takeWork_results (s : State) : s.results.tail <+: (takeWork s).state.results := by
  cases hresults : s.results with
  | nil => exact ⟨_, rfl⟩
  | cons r rest =>
    have hlook := State.look_addsResults
      (({ s with results := rest, taken := Taken.ofRecord r } : State).changeOwner? r.buffer .result .host)
    rw [State.AddsResults, State.changeOwnerOpt_results] at hlook
    rw [takeWork_of_cons hresults]
    exact hlook

/-- START (R143). -/
theorem startWork_addsResults (s : State) : s.AddsResults (startWork s).state := by
  unfold startWork
  split
  · exact .refl s
  · split
    · exact .refl s
    · exact .of_look rfl

/-- STOP adds no record (R144). -/
theorem stopWork_results (s : State) : (stopWork s).state.results = s.results := by
  unfold stopWork State.stopLine
  dsimp only
  split
  · rfl
  all_goals split <;> rfl

/-- ABORT (R146). -/
theorem abortWork_addsResults (s : State) : s.AddsResults (abortWork s).state := by
  have hreleased : s.AddsResults s.releaseLine := .of_eq rfl
  cases hc : s.context with
  | none =>
    rw [abortWork_of_idle hc]
    exact .of_eq rfl
  | some c =>
    rw [abortWork_of_flight hc]
    exact (hreleased.trans (State.closeEarly_addsResults ..)).andSame (State.becomeStopped_results _)

/-- SET_LINE adds no record (R110). -/
theorem setLineWork_results (s : State) : (setLineWork s).state.results = s.results := by
  unfold setLineWork
  split
  · rfl
  · split <;> rfl

/-- GET_LINE adds no record (R111). -/
theorem getLineWork_results (s : State) : (getLineWork s).state.results = s.results := by
  unfold getLineWork
  dsimp only
  split
  · rfl
  · dsimp only
    split <;> rfl

/-- SET_LIMITS adds no record (R148). -/
theorem setLimitsWork_results (s : State) : (setLimitsWork s).state.results = s.results := by
  unfold setLimitsWork
  split <;> rfl

/-- GET_LIMITS adds no record (R149). -/
theorem getLimitsWork_results (s : State) : (getLimitsWork s).state.results = s.results := by
  unfold getLimitsWork
  dsimp only
  split <;> rfl

/-- SET_STATION (R28 to R34). -/
theorem setStationWork_addsResults (s : State) : s.AddsResults (setStationWork s).state := by
  have hset := s.setStation_results s.latch.arg0.toNat (s.configuredEntry s.latch)
  unfold setStationWork
  split
  · exact .refl s
  · dsimp only
    split
    · exact .of_eq hset
    · exact .of_look hset

/-- GET_STATION adds no record (R39). -/
theorem getStationWork_results (s : State) : (getStationWork s).state.results = s.results := by
  unfold getStationWork
  dsimp only
  split <;> rfl

/-- NEXT_CHANGE adds no record (R37). -/
theorem nextChangeWork_results (s : State) : (nextChangeWork s).state.results = s.results := by
  unfold nextChangeWork
  split
  · rfl
  · exact s.setStation_results _ _

/-- A code that names no command selects the refusal (R174). -/
theorem workOf_of_unknown {code : Byte} (h : isUnknownCode code = true) : workOf code = unknownWork := by
  have hcode : code.toNat = 0 ∨ 0x11 ≤ code.toNat := by simpa [isUnknownCode] using h
  unfold workOf
  split
  case h_16 => rfl
  all_goals omega

/-! ## The rows -/

/-- A row that RESET# holds off (R153). -/
theorem State.live_addsResults {s : State} {f : State → State} (hf : s.AddsResults (f s)) :
    s.AddsResults (s.live f) := by
  rcases s.live_cases f with ⟨-, h⟩ | ⟨-, h⟩ <;> rw [h]
  · exact .refl s
  · exact hf

/-- A row that adds no record. -/
theorem State.live_addsResults_of_eq {s : State} {f : State → State} (hf : (f s).results = s.results) :
    s.AddsResults (s.live f) :=
  State.live_addsResults (.of_eq hf)

/-- A change of the host window adds no record. -/
theorem State.AgreesBehindWindow.results {s t : State} (h : s.AgreesBehindWindow t) : t.results = s.results := by
  rw [h]

/-- A write of a command's code (R171, R173). -/
theorem State.hostCommand_addsResults (s : State) (code : Byte) {work : State → Handled}
    (hwork : ∀ x : State, x.AddsResults (work x).state) : s.AddsResults (s.hostCommand code work) := by
  rcases s.hostCommand_cases code work with ⟨-, h⟩ | ⟨-, -, h⟩ | ⟨-, -, h⟩ <;> rw [h]
  · exact .refl s
  · exact .of_eq rfl
  · exact hwork (s.handedOver code)

/-- A write of the code of a command that adds no record. -/
theorem State.hostCommand_addsResults_of_eq (s : State) (code : Byte) {work : State → Handled}
    (hwork : ∀ x : State, (work x).state.results = x.results) : s.AddsResults (s.hostCommand code work) :=
  s.hostCommand_addsResults code fun x => .of_eq (hwork x)

/-- A write of a code that names no command (R174). -/
theorem State.writeCommand_addsResults {code : Byte} (h : isUnknownCode code = true) (s : State) :
    s.AddsResults (s.writeCommand code) := by
  have hreset : code ≠ 0x10 := by
    rintro rfl
    exact absurd h (by decide)
  rw [State.writeCommand, if_neg hreset, workOf_of_unknown h]
  exact s.hostCommand_addsResults_of_eq code fun _ => rfl

/-- A write to a register with no row of its own adds no record (R167, R171). -/
theorem State.hostWrite_results (s : State) {o : Offset} (value : Byte) (hplain : isPlainOffset o = true) :
    (s.hostWrite o value).results = s.results := by
  by_cases harg : 8 ≤ o.toNat ∧ o.toNat ≤ 15
  · rw [s.hostWrite_arg value harg.1 harg.2]
  · rw [s.hostWrite_ignored value hplain (by omega)]

/-- TAKE leaves the records, or all but the head, and adds new ones behind them (R129, R136, R173). -/
theorem State.take_results (s : State) :
    s.AddsResults (s.hostCommand 0x05 takeWork) ∨ s.results.tail <+: (s.hostCommand 0x05 takeWork).results := by
  rcases s.hostCommand_cases 0x05 takeWork with ⟨-, h⟩ | ⟨-, -, h⟩ | ⟨-, -, h⟩ <;> rw [h]
  · exact .inl (.refl s)
  · exact .inl (.of_eq rfl)
  · exact .inr (takeWork_results (s.handedOver 0x05))

/-- Every row but TAKE and the resets leaves the records and adds new ones behind them. -/
theorem exec_addsResults {i : Instr} {s t : State} (hwf : i.wellFormed = true) (h : exec i s = .next t)
    (htake : i ≠ .take) (hreset : i ≠ .reset) (hassert : i ≠ .resetAssert) (hpower : i ≠ .powerOn)
    (hwrite : ∀ code : Byte, i ≠ .discardedCommandWrite code) : s.AddsResults t := by
  cases i <;> cases h
  case take => exact absurd rfl htake
  case reset => exact absurd rfl hreset
  case resetAssert => exact absurd rfl hassert
  case powerOn => exact absurd rfl hpower
  case discardedCommandWrite code => exact absurd rfl (hwrite code)
  case allocate => exact s.hostCommand_addsResults_of_eq _ allocateWork_results
  case release => exact s.hostCommand_addsResults _ releaseWork_addsResults
  case submit => exact s.hostCommand_addsResults _ submitWork_addsResults
  case cancel => exact s.hostCommand_addsResults _ cancelWork_addsResults
  case start => exact s.hostCommand_addsResults _ startWork_addsResults
  case stop => exact s.hostCommand_addsResults_of_eq _ stopWork_results
  case abort => exact s.hostCommand_addsResults _ abortWork_addsResults
  case setLine => exact s.hostCommand_addsResults_of_eq _ setLineWork_results
  case getLine => exact s.hostCommand_addsResults_of_eq _ getLineWork_results
  case setLimits => exact s.hostCommand_addsResults_of_eq _ setLimitsWork_results
  case getLimits => exact s.hostCommand_addsResults_of_eq _ getLimitsWork_results
  case setStation => exact s.hostCommand_addsResults _ setStationWork_addsResults
  case getStation => exact s.hostCommand_addsResults_of_eq _ getStationWork_results
  case nextChange => exact s.hostCommand_addsResults_of_eq _ nextChangeWork_results
  case unknownCommand code => exact s.writeCommand_addsResults hwf
  case commandCompletion => exact State.live_addsResults_of_eq s.completeCommand_agrees.results
  case eventsWrite bank value => exact State.live_addsResults_of_eq rfl
  case enableWrite bank value => exact State.live_addsResults_of_eq (s.writeEnable_agrees bank value).results
  case bufSelectWrite value => exact State.live_addsResults_of_eq rfl
  case bufOffsetWrite value => exact State.live_addsResults_of_eq rfl
  case bufDataRead => exact State.live_addsResults_of_eq s.readBufData_agrees.results
  case bufDataWrite value => exact State.live_addsResults_of_eq (s.writeBufData_agrees value).results
  case timeLoRead => exact State.live_addsResults_of_eq rfl
  case registerWrite offset value => exact State.live_addsResults_of_eq (s.hostWrite_results value hwf)
  case resetRelease => exact .of_eq rfl
  case initialisationEnd => exact State.live_addsResults_of_eq s.endInitialisation_results
  case characterDelivered d m p st => exact State.live_addsResults (s.deliver_addsResults d m p st)
  case confirmedStartBit => exact State.live_addsResults_of_eq s.startCharacter_results
  case spaceCharacter => exact State.live_addsResults s.releaseSpace_addsResults
  case breakDetected => exact State.live_addsResults s.detectBreak_addsResults
  case breakEnd => exact State.live_addsResults s.endBreak_addsResults
  case telegramGapExpiry => exact State.live_addsResults_of_eq s.telegramGapEnd_results
  case deLeadExpiry => exact State.live_addsResults_of_eq s.deLeadEnd_results
  case deTrailExpiry => exact State.live_addsResults_of_eq s.deTrailEnd_results
  case echoMissing =>
    refine State.live_addsResults ?_
    split
    · exact s.collide_addsResults
    all_goals exact .refl s
  case characterSent =>
    refine State.live_addsResults ?_
    split
    · exact .of_eq (s.sendNext_results _)
    all_goals exact .refl s
  case answerTimerExpiry => exact State.live_addsResults_of_eq s.answerTimerEnd_results
  case characterGapExpiry => exact State.live_addsResults_of_eq s.characterGapEnd_results
  case settleTimerExpiry => exact State.live_addsResults s.settleEnd_addsResults
  case holdoffExpiry => exact State.live_addsResults s.holdoffEnd_addsResults
  case timeCounterTick => exact State.live_addsResults_of_eq s.takeGivenTicks_results
  case tenMsTick => exact State.live_addsResults_of_eq s.tick10_results
  case hundredMsTick => exact State.live_addsResults_of_eq s.tick100_results
  case pollCountdownExpiry a => exact State.live_addsResults (s.pollFallsDue_addsResults a)
  case probeCountdownExpiry a => exact State.live_addsResults (s.probeFallsDue_addsResults a)
  case holdEnd => exact State.live_addsResults s.endHolds_addsResults
  case rxdReturnToMark => exact State.live_addsResults_of_eq s.returnToMark_results

/-- Settles O18: TAKE removes at the head, and every other row that is named adds behind. -/
theorem resultsLeaveOnlyByTake : Obligations.ResultsLeaveOnlyByTake := by
  intro c s t hwf hexec hreset hassert hpower hwrite
  by_cases htake : c = .take
  · subst htake
    cases hexec
    rcases s.take_results with ⟨new, hnew⟩ | ⟨new, hnew⟩
    · exact ⟨new, .inl hnew.symm⟩
    · exact ⟨new, .inr ⟨rfl, hnew.symm⟩⟩
  · obtain ⟨new, hnew⟩ := exec_addsResults hwf hexec htake hreset hassert hpower hwrite
    exact ⟨new, .inl hnew.symm⟩

end Sys2Proof.Machine
end

section
/-! SUPPORT. RESET# held low, the commands that change the line mode, and GET_LIMITS. -/

namespace Sys2Proof.Machine

/-! ## RESET# held low (R153, R166) -/

/-- A step that waits for RESET# to be high changes nothing while it is held low (R153). -/
theorem State.live_of_held {s : State} (hheld : s.resetHeld = true) (f : State → State) : s.live f = s :=
  if_pos hheld

/-- A write of a command's code is ignored while RESET# is held low (R153). -/
theorem State.hostCommand_of_held {s : State} (hheld : s.resetHeld = true) (code : Byte) (work : State → Handled) :
    s.hostCommand code work = s :=
  if_pos hheld

/-- A write of RESET's code is ignored while RESET# is held low (R153). -/
theorem State.resetCommand_of_held {s : State} (hheld : s.resetHeld = true) : s.resetCommand = s :=
  if_pos hheld

/-- A write of any code to COMMAND is ignored while RESET# is held low (R153). -/
theorem State.writeCommand_of_held {s : State} (hheld : s.resetHeld = true) (code : Byte) : s.writeCommand code = s := by
  unfold State.writeCommand
  split
  · exact State.resetCommand_of_held hheld
  · exact State.hostCommand_of_held hheld code (workOf code)

/-- While RESET# is held low a row changes nothing, but for those of RESET# and of power-on: the host's commands are
ignored, and every other row waits for RESET# to be high (R153). -/
theorem exec_of_held {i : Instr} {s : State} (hheld : s.resetHeld = true) (hassert : i ≠ .resetAssert)
    (hrelease : i ≠ .resetRelease) (hpower : i ≠ .powerOn) : exec i s = .next s := by
  cases i
  case resetAssert => exact absurd rfl hassert
  case resetRelease => exact absurd rfl hrelease
  case powerOn => exact absurd rfl hpower
  case reset => exact congrArg Host.Outcome.next (State.resetCommand_of_held hheld)
  case unknownCommand code | discardedCommandWrite code =>
    exact congrArg Host.Outcome.next (State.writeCommand_of_held hheld code)
  case allocate | release | submit | cancel | take | start | stop | abort | setLine | getLine | setLimits | getLimits
      | setStation | getStation | nextChange =>
    exact congrArg Host.Outcome.next (State.hostCommand_of_held hheld _ _)
  all_goals exact congrArg Host.Outcome.next (State.live_of_held hheld _)

/-- While RESET# is held low the port only follows the pins (R166). -/
theorem State.pinChange_of_held {s : State} (p : Pins) (hheld : s.resetHeld = true) :
    s.pinChange p = { s with port := p.quiet false } :=
  if_pos hheld

/-- While RESET# is held low a read returns nothing (R153). -/
theorem State.readRegister_of_held {s : State} (o : Offset) (hheld : s.resetHeld = true) : s.readRegister o = none :=
  if_pos hheld

/-- While RESET# is held low the part does not drive the data pins (R153, R166). -/
theorem State.busDrive_of_held {s : State} (hheld : s.resetHeld = true) : s.busDrive = none :=
  if_pos hheld

/-- Settles O3: every other row changes nothing, and the port only follows the pins. -/
theorem heldPartMovesOnlyByResets : Obligations.HeldPartMovesOnlyByResets :=
  ⟨fun _ _ => exec_of_held, fun _ p o hheld =>
    ⟨State.pinChange_of_held p hheld, State.readRegister_of_held o hheld, State.busDrive_of_held hheld⟩⟩

/-! ## START (R143) -/

/-- START is refused outside STOPPED (R143). -/
theorem startWork_of_not_stopped {s : State} (hmode : s.mode ≠ .stopped) :
    startWork s = { state := s, code := .wrongMode, replies := s.modeReplies } :=
  if_pos hmode

/-- START is refused for an answer timeout below the character gap plus 1 (R143). -/
theorem startWork_of_bad {s : State} (hmode : s.mode = .stopped)
    (hbad : s.lineConfig.answerTimeout < s.lineConfig.characterGap + 1) :
    startWork s = { state := s, code := .badConfig, replies := s.modeReplies } := by
  rw [startWork, if_neg (not_not.2 hmode), if_pos hbad]

/-- An accepted START makes the mode RUNNING and looks for work (R143). -/
theorem startWork_of_ok {s : State} (hmode : s.mode = .stopped)
    (hok : s.lineConfig.characterGap + 1 ≤ s.lineConfig.answerTimeout) :
    startWork s =
      { state := { s with mode := .running }.look, code := .ok
        replies := State.modeReplies { s with mode := .running } } := by
  rw [startWork, if_neg (not_not.2 hmode), if_neg (Nat.not_lt.2 hok)]

/-- Outside STOPPED the reply shows 1 in RUNNING and 2 in DRAINING (R142, R143). -/
theorem State.modeReplies_of_not_stopped {s : State} (hmode : s.mode ≠ .stopped) :
    s.modeReplies = ⟨if s.mode = .running then 1 else 2, 0, 0, 0⟩ := by
  unfold State.modeReplies
  cases h : s.mode
  case stopped => exact absurd h hmode
  all_goals rfl

/-- The reply shows the code of the mode that the line is in (R142). -/
theorem State.modeReplies_of_mode {s : State} {mode : LineMode} (hmode : s.mode = mode) :
    s.modeReplies = Replies.of mode.code 0 0 0 := by
  rw [State.modeReplies, hmode]

/-- Settles O19: the two refusals, then the start. -/
theorem startRule : Obligations.StartRule := by
  intro s htakes
  have hexec : exec .start s = .next (s.hostCommand 0x06 startWork) := rfl
  rw [hexec, State.hostCommand_of_takes htakes]
  refine ⟨fun hmode => ?_, fun hmode hbad => ?_, fun hmode hok => ?_⟩
  · rw [startWork_of_not_stopped (s := s.handedOver 0x06) hmode,
      State.modeReplies_of_not_stopped (s := s.handedOver 0x06) hmode]
    rfl
  · rw [startWork_of_bad (s := s.handedOver 0x06) hmode hbad,
      State.modeReplies_of_mode (s := s.handedOver 0x06) hmode]
    rfl
  · rw [startWork_of_ok (s := s.handedOver 0x06) hmode hok]
    rfl

/-! ## STOP (R144) -/

/-- STOP in STOPPED raises LINE_STOPPED again (R144). -/
theorem State.stopLine_of_stopped {s : State} (hmode : s.mode = .stopped) : s.stopLine = s.raise .lineStopped := by
  rw [State.stopLine, hmode]

/-- STOP in RUNNING stops the line at once with nothing in flight (R144). -/
theorem State.stopLine_of_idle {s : State} (hmode : s.mode = .running) (hcontext : s.context = none) :
    s.stopLine = s.becomeStopped := by
  simp [State.stopLine, hmode, hcontext]

/-- STOP in RUNNING drains the line with a transaction in flight (R144). -/
theorem State.stopLine_of_flight {s : State} (hmode : s.mode = .running) (hcontext : s.context.isSome = true) :
    s.stopLine = { s with mode := .draining, stallActive := false } := by
  simp [State.stopLine, hmode, hcontext]

/-- STOP changes nothing while the line drains (R144). -/
theorem State.stopLine_of_draining {s : State} (hmode : s.mode = .draining) (hcontext : s.context.isSome = true) :
    s.stopLine = s := by
  simp [State.stopLine, hmode, hcontext]

/-- STOP succeeds and replies with the mode that it leaves (R144). -/
theorem stopWork_of_stopLine {s t : State} {mode : LineMode} (hstop : s.stopLine = t) (hmode : t.mode = mode) :
    stopWork s = { state := t, code := .ok, replies := Replies.of mode.code 0 0 0 } := by
  rw [stopWork, hstop, State.modeReplies_of_mode hmode]

/-- Settles O20: by the mode, and in RUNNING by whether a transaction is in flight. -/
theorem stopRule : Obligations.StopRule := by
  intro s htakes
  have hexec : exec .stop s = .next (s.hostCommand 0x07 stopWork) := rfl
  rw [hexec, State.hostCommand_of_takes htakes]
  refine ⟨fun hmode => ?_, fun hmode hcontext => ?_, fun hmode hcontext => ?_, fun hmode hcontext => ?_⟩
  · rw [stopWork_of_stopLine (State.stopLine_of_stopped (s := s.handedOver 0x07) hmode) hmode]
    rfl
  · rw [stopWork_of_stopLine (State.stopLine_of_idle (s := s.handedOver 0x07) hmode hcontext) rfl]
    rfl
  · rw [stopWork_of_stopLine (State.stopLine_of_flight (s := s.handedOver 0x07) hmode hcontext) rfl]
    rfl
  · rw [stopWork_of_stopLine (State.stopLine_of_draining (s := s.handedOver 0x07) hmode hcontext) hmode]
    rfl

/-! ## GET_LIMITS (R149) -/

/-- GET_LIMITS is refused for a page above 1 (R149). -/
theorem getLimitsWork_of_bad {s : State} (hbad : 1 < s.latch.arg0.toNat) :
    getLimitsWork s = s.refuse .badArgument :=
  if_pos hbad

/-- GET_LIMITS reads a page and changes nothing (R149). -/
theorem getLimitsWork_of_page {s : State} {page : Nat} (hpage : s.latch.arg0.toNat = page) (hle : page ≤ 1) :
    getLimitsWork s = { state := s, code := .ok, replies := s.limitsPage page } := by
  subst hpage
  exact if_neg (Nat.not_lt.2 hle)

/-- Settles O25: the refusal, and the two pages. -/
theorem getLimitsRule : Obligations.GetLimitsRule := by
  intro s htakes
  have hexec : exec .getLimits s = .next (s.hostCommand 0x0C getLimitsWork) := rfl
  rw [hexec, State.hostCommand_of_takes htakes]
  have hread (page : Nat) (hpage : s.args.arg0.toNat = page) (hle : page ≤ 1) :
      getLimitsWork (s.handedOver 0x0C) =
        { state := s.handedOver 0x0C, code := .ok, replies := s.limitsPage page } :=
    getLimitsWork_of_page (s := s.handedOver 0x0C) hpage hle
  refine ⟨fun hbad => ?_, fun hpage => ?_, fun hpage => ?_⟩
  · rw [getLimitsWork_of_bad (s := s.handedOver 0x0C) hbad]
    rfl
  · rw [hread 0 (congrArg BitVec.toNat hpage) (by omega)]
    rfl
  · rw [hread 1 (congrArg BitVec.toNat hpage) (by omega)]
    rfl

end Sys2Proof.Machine
end

section
/-! SUPPORT. The code table of COMMAND, and the writes to EVENTS_A and EVENTS_B by their row and by the pins. -/

namespace Sys2Proof.Machine

/-! ## The code table (R176) -/

/-- A code written to COMMAND does the same whether its own row or the row of the discarded write brings it: while the
unit is READY it is taken (R160). -/
theorem exec_discardedCommandWrite (code : Byte) (s : State) :
    exec (.discardedCommandWrite code) s = exec (commandOfCode code) s :=
  (rfl : exec (.discardedCommandWrite code) s = .next (s.writeCommand code)).trans (exec_commandOfCode code s).symm

/-- Settles O7: the sixteen codes one by one, then the write to a READY unit. -/
theorem commandCodesSelectCommands : Obligations.CommandCodesSelectCommands :=
  ⟨by decide, fun s code _ => exec_discardedCommandWrite code s⟩

/-! ## Writes to the event registers (R158) -/

/-- A flag raised while a write access is in progress is held back: the flags stand as they stood when it began. -/
theorem State.raise_flags_of_write {s : State} {standing : Events} (hwrite : s.port.access = .write standing)
    (f : LatchedFlag) : (s.raise f).flags = standing :=
  State.flags_of_write (s := s.raise f) hwrite

/-- A raised flag is set in the state's own field, which holds the raises held back while a write is in progress. -/
theorem State.raise_events_get_same (s : State) (f : LatchedFlag) : (s.raise f).events.get f = true := by
  rw [State.raise_events, Events.get_raise, decide_eq_true rfl, Bool.true_or]

/-- The end of a write to an event register: the clear of the standing flags, then the raises held back. -/
theorem State.endWrite_of_eventsAddress (s : State) (standing : Events) {p : Pins} {bank : EventBank}
    (haddress : p.address = if bank = .a then 0x02 else 0x03) :
    s.endWrite standing p =
      { s with port := p.quiet false, events := (standing.writeOneToClear bank p.data).merge s.events } := by
  unfold State.endWrite
  cases bank <;> rw [haddress] <;> rfl

/-- Settles O32: the row of the write; then, in a write by the pins, the flags that stand, the raises that are held back,
and the end of the access. -/
theorem eventsWriteClears : Obligations.EventsWriteClears := by
  intro s bank value hlive
  refine ⟨⟨_, exec_of_live rfl hlive, rfl, Events.get_writeOneToClear s.events bank value⟩,
    fun standing p hwrite => ⟨State.flags_of_write hwrite,
      fun f => ⟨State.raise_flags_of_write hwrite f, s.raise_events_get_same f⟩, fun hends haddress hdata => ?_⟩⟩
  have hended : s.pinChange p =
      { s with port := p.quiet false, events := (standing.writeOneToClear bank value).merge s.events } := by
    rw [State.pinChange_of_write p hlive hwrite, if_pos hends, s.endWrite_of_eventsAddress standing haddress, hdata]
  refine ⟨_, hended, rfl, fun f => ?_⟩
  rw [Events.get_merge, Events.get_writeOneToClear]

end Sys2Proof.Machine
end

section
/-! SUPPORT. The Command Unit: the completion of a command, the writes to COMMAND while the unit is BUSY, and the codes
that name no command. -/

namespace Sys2Proof.Machine

/-! ## The completion (R172) -/

/-- The completion writes what the immediate work left for it, and raises COMMAND_DONE (R172). -/
theorem State.completeCommand_of_executing {s : State} {code : ResultCode} {replies : Replies}
    (hunit : s.unit = .executing code replies) :
    s.completeCommand =
      State.raise { s with unit := .ready, cmdResult := code, replies := replies } .commandDone := by
  rw [State.completeCommand, hunit]

/-- Settles O4: with RESET# high the row is the completion itself. -/
theorem commandCompletionWritesResult : Obligations.CommandCompletionWritesResult := by
  intro s code replies hlive hunit
  rw [exec_of_live (i := .commandCompletion) rfl hlive, State.completeCommand_of_executing hunit]
  rfl

/-! ## A BUSY unit (R173) -/

/-- A command written while the unit is BUSY is discarded (R173). -/
theorem State.hostCommand_of_busy {s : State} (hlive : s.resetHeld = false) (hbusy : s.unit ≠ .ready) (code : Byte)
    (work : State → Handled) : s.hostCommand code work = s.discardCommand := by
  rcases s.hostCommand_cases code work with ⟨hheld, -⟩ | ⟨-, -, hdiscards⟩ | ⟨-, hready, -⟩
  · simp [hlive] at hheld
  · exact hdiscards
  · exact absurd hready hbusy

/-- RESET written while the unit is BUSY is discarded like any command (R173). -/
theorem State.resetCommand_of_busy {s : State} (hlive : s.resetHeld = false) (hbusy : s.unit ≠ .ready) :
    s.resetCommand = s.discardCommand := by
  rw [State.resetCommand, if_neg (by simp [hlive])]
  cases hunit : s.unit
  case ready => exact absurd hunit hbusy
  all_goals rfl

/-- Any code written while the unit is BUSY is discarded (R173). -/
theorem State.writeCommand_of_busy {s : State} (hlive : s.resetHeld = false) (hbusy : s.unit ≠ .ready) (code : Byte) :
    s.writeCommand code = s.discardCommand := by
  unfold State.writeCommand
  split
  · exact State.resetCommand_of_busy hlive hbusy
  · exact State.hostCommand_of_busy hlive hbusy code (workOf code)

/-- Settles O5: by the row, RESET and the rows of any code apart from those of the other commands. -/
theorem busyUnitDiscardsCommands : Obligations.BusyUnitDiscardsCommands := by
  intro c s hwrite hlive hbusy
  change exec c s = .next s.discardCommand
  cases c
  case reset => exact congrArg Host.Outcome.next (State.resetCommand_of_busy hlive hbusy)
  case unknownCommand code | discardedCommandWrite code =>
    exact congrArg Host.Outcome.next (State.writeCommand_of_busy hlive hbusy code)
  case allocate | release | submit | cancel | take | start | stop | abort | setLine | getLine | setLimits | getLimits
      | setStation | getStation | nextChange =>
    exact congrArg Host.Outcome.next (State.hostCommand_of_busy hlive hbusy _ _)
  all_goals exact absurd hwrite Bool.false_ne_true

/-! ## The codes that name no command (R174) -/

/-- A code that names no command is taken like any command, with the work that refuses it (R174). -/
theorem State.writeCommand_of_unknown {code : Byte} (hunknown : isUnknownCode code = true) (s : State) :
    s.writeCommand code = s.hostCommand code unknownWork := by
  have hne : code ≠ 0x10 := by
    rintro rfl
    exact absurd hunknown (by decide)
  rw [State.writeCommand, if_neg hne, workOf_of_unknown hunknown]

/-- Settles O6: the hand-over, whose work changes nothing, then the completion of O4. -/
theorem unknownCodeCompletes : Obligations.UnknownCodeCompletes := by
  intro s code htakes hcode
  have hunknown : isUnknownCode code = true := by
    rcases hcode with rfl | hcode <;> simp [isUnknownCode, *]
  have hexec : exec (.unknownCommand code) s = .next (s.writeCommand code) := rfl
  constructor
  · rw [hexec, State.writeCommand_of_unknown hunknown, State.hostCommand_of_takes htakes]
    rfl
  · exact commandCompletionWritesResult _ .unknownCommand ⟨0, 0, 0, 0⟩ htakes.1 rfl

end Sys2Proof.Machine
end

section
/-! SUPPORT. What is the model's own, through every step: no row touches the waiting commands, and every row keeps
message memory in its canonical form. -/

namespace Sys2Proof.Machine

/-! ## The model's own (log entries 2 and 23) -/

/-- `t` holds the waiting commands of `s`, and its message memory is canonical where that of `s` is. -/
def State.KeepsForm (s t : State) : Prop :=
  t.pending = s.pending ∧ (s.memory.wf = true → t.memory.wf = true)

/-- No change. -/
theorem State.KeepsForm.refl (s : State) : s.KeepsForm s :=
  ⟨rfl, id⟩

/-- Two such changes are one. -/
theorem State.KeepsForm.trans {s t u : State} (h : s.KeepsForm t) (h' : t.KeepsForm u) : s.KeepsForm u :=
  ⟨h'.1.trans h.1, fun hwf => h'.2 (h.2 hwf)⟩

/-! ## The shared operations -/

section Operations

variable {s t : State} (h : s.KeepsForm t)
include h

/-- Such a change, and then one of neither. -/
theorem State.KeepsForm.andSame {u : State} (hpending : u.pending = t.pending) (hmemory : u.memory = t.memory) :
    s.KeepsForm u :=
  h.trans ⟨hpending, fun hwf => hmemory ▸ hwf⟩

/-- The taking of a buffer clears it (R115). -/
theorem State.KeepsForm.takeHead (new : Ownership) : s.KeepsForm (t.takeHead new) :=
  h.trans ⟨t.takeHead_pending new, State.wf_takeHead new⟩

/-- A byte of a buffer is written (R112). -/
theorem State.KeepsForm.writeBuffer (buffer place : Nat) (value : Byte) :
    s.KeepsForm (t.writeBuffer buffer place value) :=
  h.trans ⟨t.writeBuffer_pending buffer place value, State.wf_writeBuffer buffer place value⟩

/-- A change of ownership (R114). -/
theorem State.KeepsForm.changeOwnerOpt (buffer : Option Nat) (old new : Ownership) :
    s.KeepsForm (t.changeOwner? buffer old new) :=
  h.andSame (t.changeOwnerOpt_pending buffer old new) (t.changeOwnerOpt_memory buffer old new)

/-- A change of the Station Table (R19). -/
theorem State.KeepsForm.setStation (a : Nat) (e : Station) : s.KeepsForm (t.setStation a e) :=
  h.andSame (t.setStation_pending a e) (t.setStation_memory a e)

/-- The end of a drain (R145). -/
theorem State.KeepsForm.endDrain : s.KeepsForm t.endDrain :=
  h.andSame t.endDrain_pending t.endDrain_memory

/-- IDLE is entered. -/
theorem State.KeepsForm.enterIdle : s.KeepsForm t.enterIdle := h

/-- HOLDOFF is entered (R105). -/
theorem State.KeepsForm.enterHoldoff : s.KeepsForm t.enterHoldoff := h

/-- The closing of a transaction (R102). -/
theorem State.KeepsForm.close (c : Context) (record : Option ResultRecord) (clearSync : Bool) :
    s.KeepsForm (t.close c record clearSync) :=
  h.andSame (t.close_pending c record clearSync) (t.close_memory c record clearSync)

/-- The early closing of a transaction. -/
theorem State.KeepsForm.closeEarly (c : Context) (outcome : ResultOutcome) (cancelRequested taken : Bool) :
    s.KeepsForm (t.closeEarly c outcome cancelRequested taken) := by
  obtain ⟨record, clear, heq, -⟩ := t.closeEarly_eq_close c outcome cancelRequested taken
  rw [heq]
  exact h.close ..

/-- The dispatch of a request may take a buffer (R62). -/
theorem State.KeepsForm.dispatchRequest (r : Request) : s.KeepsForm (t.dispatchRequest r) := by
  have hremoved : s.KeepsForm { t.removeRequest r.ticket with reserved := true } := h
  have htaken : s.KeepsForm (t.dispatchTaken r) := by
    unfold State.dispatchTaken
    split
    · exact hremoved.takeHead .line
    · exact hremoved
  exact htaken.changeOwnerOpt r.outBuffer .queued .line

/-- The dispatch of a poll or a probe takes a buffer (R63). -/
theorem State.KeepsForm.dispatchPoll (a : Nat) : s.KeepsForm (t.dispatchPoll a) := by
  have hreserved : s.KeepsForm { t with reserved := true } := h
  exact (hreserved.takeHead .line).setStation a _

/-- The look of the Dispatcher (R57). -/
theorem State.KeepsForm.look : s.KeepsForm t.look := by
  refine State.look_keeps (P := s.KeepsForm) h (fun _ hx => hx) (fun x hx _ => ?_) (fun x r hx _ _ _ _ _ => ?_)
    (fun x r hx _ _ _ _ _ => hx.dispatchRequest r) (fun x a hx _ _ _ _ _ _ => hx.dispatchPoll a)
  · rw [State.stalledLook_frame]
    exact hx
  · exact State.KeepsForm.changeOwnerOpt (t := x.removeRequest r.ticket) hx ..

/-- The decision on a request (R100). -/
theorem State.KeepsForm.decideRequest (c : Context) (v : Verdict) (lost : Bool) :
    s.KeepsForm (t.decideRequest c v lost) := by
  rcases t.decideRequest_cases c v lost with ⟨r, heq⟩ | heq | ⟨-, heq⟩ <;> rw [heq]
  · exact h.close ..
  · exact h
  · exact (h.changeOwnerOpt c.outBuffer .line .queued).changeOwnerOpt c.answerBuffer .line .free

/-- The decision on a poll or a probe (R77 to R79). -/
theorem State.KeepsForm.decidePoll (c : Context) (v : Verdict) : s.KeepsForm (t.decidePoll c v) := by
  obtain ⟨record, placed, hplaced, heq⟩ := t.decidePoll_cases c v
  rw [heq]
  rcases hplaced with rfl | ⟨e, rfl⟩
  · exact h.close ..
  · exact (h.setStation c.station e).close ..

/-- A verdict takes effect (R99). -/
theorem State.KeepsForm.takeVerdict : s.KeepsForm t.takeVerdict := by
  rcases t.takeVerdict_cases with heq | ⟨c, -, ⟨-, r, heq⟩ | ⟨v, -, -, ⟨-, lost, heq⟩ | ⟨-, heq⟩⟩⟩ <;> rw [heq]
  · exact h
  · exact h.close ..
  · exact (h.setStation _ _).decideRequest ..
  · exact (h.setStation _ _).decidePoll ..

/-- A collision (R91). -/
theorem State.KeepsForm.collide : s.KeepsForm t.collide := by
  unfold State.collide
  split
  · exact h
  · rename_i c _
    have hheld : s.KeepsForm (t.collisionHeld c) := h
    have hraised : s.KeepsForm (t.collisionRaised c) := h
    dsimp only
    split
    · exact (hraised.closeEarly ..).endDrain
    · split
      · exact (hheld.closeEarly ..).endDrain
      · exact hheld

/-- The first start bit of a call (R89). -/
theorem State.KeepsForm.beginCall : s.KeepsForm t.beginCall := by
  unfold State.beginCall
  split
  · exact h
  · dsimp only
    split
    · exact h.setStation _ _
    · exact h

/-- CALLING begins (R88, R89). -/
theorem State.KeepsForm.enterCalling : s.KeepsForm t.enterCalling := by
  unfold State.enterCalling
  dsimp only
  split
  · exact State.KeepsForm.beginCall h
  · exact h

/-! ## Characters -/

/-- The beginning of an answer may clear the answer buffer (R94). -/
theorem State.KeepsForm.beginReception : s.KeepsForm t.beginReception := by
  refine h.trans ⟨?_, State.wf_beginReception⟩
  rw [State.beginReception_eq]

/-- A payload byte is stored (R94). -/
theorem State.KeepsForm.storePayload (c : Context) (data : Byte) : s.KeepsForm (t.storePayload c data) := by
  unfold State.storePayload
  split
  · exact h
  · split
    · exact h.writeBuffer _ _ _
    · exact h

/-- A character of an answer (R94). -/
theorem State.KeepsForm.answerCharacter (d : Delivered) : s.KeepsForm (t.answerCharacter d) := by
  unfold State.answerCharacter
  split
  · exact h
  · rename_i c _
    have hstored : s.KeepsForm
        (if t.reception.taken < t.reception.length + 3 then t.storePayload c d.data else t) := by
      split
      · exact h.storePayload c d.data
      · exact h
    split
    · exact h
    · dsimp only
      split
      · exact h
      · split
        · exact hstored
        · exact h

/-- A late character (R98). -/
theorem State.KeepsForm.lateCharacter : s.KeepsForm t.lateCharacter := by
  unfold State.lateCharacter
  split
  · exact h
  · dsimp only
    split
    · exact h
    · exact h.setStation _ _

/-- A character that was not asked for (R104). -/
theorem State.KeepsForm.unaskedCharacter (d : Delivered) : s.KeepsForm (t.unaskedCharacter d) := by
  unfold State.unaskedCharacter State.reloadQuiet
  split
  · exact h
  · split <;> exact h

/-- A delivered character (R4). -/
theorem State.KeepsForm.takeCharacter (d : Delivered) : s.KeepsForm (t.takeCharacter d) := by
  unfold State.takeCharacter State.echoCheck State.stoppedCharacter
  split
  · split
    · split
      · exact h
      · exact h.collide
    all_goals exact h.collide
  · split
    · split <;> exact h
    · split
      · exact h.unaskedCharacter d
      · exact h.unaskedCharacter d
      · exact h.unaskedCharacter d
      · exact h.beginReception.answerCharacter d
      · exact h.answerCharacter d
      · exact h.lateCharacter
      · exact h

/-- A break that cuts an answer short (R107). -/
theorem State.KeepsForm.breakReception : s.KeepsForm t.breakReception := by
  rw [State.breakReception_frame]
  exact h

/-- A break is detected (R106, R107). -/
theorem State.KeepsForm.detectBreak : s.KeepsForm t.detectBreak := by
  unfold State.detectBreak
  split
  · exact h
  · dsimp only
    split
    · exact State.KeepsForm.collide h
    · refine State.KeepsForm.breakReception (State.KeepsForm.beginReception ?_)
      exact h
    · exact State.KeepsForm.breakReception h
    all_goals exact h

/-- A break ends (R107). -/
theorem State.KeepsForm.endBreak : s.KeepsForm t.endBreak := by
  have hready : s.KeepsForm { t with receiver := Receiver.ready } := h
  unfold State.endBreak
  split
  · dsimp only
    split
    · exact hready
    · split
      · exact hready
      · exact hready
      · exact hready
      · exact hready.takeVerdict.enterHoldoff.endDrain
      · exact hready.takeVerdict.enterHoldoff.endDrain
      · exact hready.collide
      · exact hready
  · exact h

/-! ## Timers, the line's commands and the resets -/

/-- The settle timer (R99). -/
theorem State.KeepsForm.settleEnd : s.KeepsForm t.settleEnd := by
  unfold State.settleEnd
  split
  · dsimp only
    split
    · exact h.takeVerdict
    · exact h.takeVerdict.enterIdle.endDrain.look
  · exact h

/-- The holdoff timer (R105). -/
theorem State.KeepsForm.holdoffEnd : s.KeepsForm t.holdoffEnd := by
  unfold State.holdoffEnd
  split
  · split
    · exact h
    · exact h.enterIdle.look
  · exact h

/-- CANCEL in GAP or HOLDOFF (R52). -/
theorem State.KeepsForm.cancelWaiting (c : Context) : s.KeepsForm (t.cancelWaiting c) := by
  have hclosed := h.closeEarly c .cancelled false true
  unfold State.cancelWaiting
  dsimp only
  split
  · exact hclosed.enterIdle.endDrain.look
  · exact hclosed.endDrain

/-- STOP (R144). -/
theorem State.KeepsForm.stopLine : s.KeepsForm t.stopLine := by
  unfold State.stopLine
  split
  · exact h
  · split <;> exact h
  · split <;> exact h

/-- ABORT (R146). -/
theorem State.KeepsForm.abort : s.KeepsForm (abortWork t).state := by
  have hreleased : s.KeepsForm t.releaseLine := h
  unfold abortWork
  dsimp only
  split
  · exact hreleased
  · rename_i c _
    exact hreleased.closeEarly c .aborted c.cancelPending false

/-- The end of initialisation empties message memory (R155). -/
theorem State.KeepsForm.endInitialisation : s.KeepsForm t.endInitialisation := by
  unfold State.endInitialisation
  split
  · exact h.trans ⟨rfl, fun _ => Memory.wf_nil⟩
  all_goals exact h

/-- Every act behind the host window. -/
theorem State.KeepsForm.acts {u : State} (hact : t.Acts u) : s.KeepsForm u := by
  cases hact with
  | nothing => exact h
  | allocate => exact h.takeHead .host
  | release b hb => exact (h.changeOwnerOpt (some b) .host .free).look
  | submit a ha => exact State.KeepsForm.look (h.changeOwnerOpt _ _ _)
  | cancelQueued r hr => exact (State.KeepsForm.changeOwnerOpt (t := t.removeRequest r.ticket) h ..).look
  | cancelWaiting c hc hphase => exact h.cancelWaiting c
  | cancelFlying c hc hphase => exact h
  | take r rest shown hr =>
    exact (State.KeepsForm.changeOwnerOpt (t := { t with results := rest, taken := shown }) h ..).look
  | start hmode => exact State.KeepsForm.look h
  | stop => exact h.stopLine
  | abort => exact h.abort
  | setLine a ha => exact h
  | clearCounters => exact h
  | setLimits a ha => exact h
  | configure a => exact h.setStation _ _
  | configureAndLook a => exact (h.setStation _ _).look
  | clearChanged a => exact h.setStation _ _
  | softReset => exact h.trans ⟨rfl, fun _ => Memory.wf_nil⟩
  | hardReset held => exact h.trans ⟨rfl, fun _ => Memory.wf_nil⟩
  | endInitialisation => exact h.endInitialisation
  | receive r => exact h
  | beginReception r hphase => exact State.KeepsForm.beginReception (t := { t with receiver := r }) h
  | takeCharacter r d => exact State.KeepsForm.takeCharacter (t := { t with receiver := r }) h d
  | detectBreak => exact h.detectBreak
  | endBreak => exact h.endBreak
  | echoMissing htx => exact h.collide
  | characterSent i htx =>
    rw [State.sendNext_frame]
    exact h
  | telegramGapEnd hphase => exact h.enterCalling
  | deLeadEnd => exact h.beginCall
  | deTrailEnd htx =>
    rw [State.completeCall_frame]
    exact h
  | answerTimerEnd =>
    unfold State.answerTimerEnd
    split <;> exact h
  | characterGapEnd =>
    unfold State.characterGapEnd
    split <;> exact h
  | settleEnd => exact h.settleEnd
  | holdoffEnd => exact h.holdoffEnd
  | tick => exact h.andSame t.takeGivenTicks_pending t.takeGivenTicks_memory
  | tick10 => exact h.andSame t.tick10_pending t.tick10_memory
  | tick100 => exact h.andSame t.tick100_pending t.tick100_memory
  | look => exact h.look
  | endHolds =>
    unfold State.endHolds
    split
    · exact State.KeepsForm.look h
    · exact h

end Operations

/-! ## The rows -/

/-- An act alone. -/
theorem State.Acts.keepsForm {s t : State} (h : s.Acts t) : s.KeepsForm t :=
  (State.KeepsForm.refl s).acts h

/-- A row that RESET# holds off (R153). -/
theorem State.KeepsForm.live {s : State} {f : State → State} (hf : s.KeepsForm (f s)) : s.KeepsForm (s.live f) := by
  rcases s.live_cases f with ⟨-, heq⟩ | ⟨-, heq⟩ <;> rw [heq]
  · exact .refl s
  · exact hf

/-- An act that RESET# holds off (R153). -/
theorem State.Acts.live_keepsForm {s : State} {f : State → State} (h : s.Acts (f s)) : s.KeepsForm (s.live f) :=
  h.keepsForm.live

/-- A write of the code of a command to COMMAND (R171, R173). -/
theorem State.hostCommand_keepsForm (s : State) (code : Byte) : s.KeepsForm (s.hostCommand code (workOf code)) := by
  rcases s.hostCommand_cases code (workOf code) with ⟨-, heq⟩ | ⟨-, -, heq⟩ | ⟨-, -, heq⟩ <;> rw [heq]
  · exact .refl s
  · exact .refl s
  · have hhanded : s.KeepsForm (s.handedOver code) := .refl s
    have hdone := hhanded.acts (workOf_acts code _)
    exact hdone

/-- A write of RESET's code (R154, R173). -/
theorem State.resetCommand_keepsForm (s : State) : s.KeepsForm s.resetCommand := by
  unfold State.resetCommand
  split
  · exact .refl s
  · split
    · exact State.Acts.softReset.keepsForm
    all_goals exact .refl s

/-- A write of any code to COMMAND (R171, R173, R174). -/
theorem State.writeCommand_keepsForm (s : State) (code : Byte) : s.KeepsForm (s.writeCommand code) := by
  unfold State.writeCommand
  split
  · exact s.resetCommand_keepsForm
  · exact s.hostCommand_keepsForm code

/-- A read of BUF_DATA (R121). -/
theorem State.readBufData_keepsForm (s : State) : s.KeepsForm s.readBufData := by
  unfold State.readBufData
  split <;> exact .refl s

/-- A write of BUF_DATA (R121). -/
theorem State.writeBufData_keepsForm (s : State) (value : Byte) : s.KeepsForm (s.writeBufData value) := by
  unfold State.writeBufData
  split
  · exact (State.KeepsForm.refl s).writeBuffer _ _ _
  · exact .refl s

/-- A write access to any offset (R167). -/
theorem State.hostWrite_keepsForm (s : State) (offset : Offset) (value : Byte) :
    s.KeepsForm (s.hostWrite offset value) := by
  unfold State.hostWrite
  split
  case h_5 => exact s.writeCommand_keepsForm value
  case h_8 => exact s.writeBufData_keepsForm value
  case h_9 => split <;> exact .refl s
  all_goals exact .refl s

/-- The completion of a command (R172). -/
theorem State.completeCommand_keepsForm (s : State) : s.KeepsForm s.completeCommand := by
  unfold State.completeCommand
  split <;> exact .refl s

/-- Every row keeps what is the model's own: the rows of COMMAND, those of the host window, then the acts of the line
and the Timebase. -/
theorem exec_keepsForm {i : Instr} {s t : State} (h : exec i s = .next t) : s.KeepsForm t := by
  cases i <;> cases h
  case allocate | release | submit | cancel | take | start | stop | abort | setLine | getLine | setLimits | getLimits
      | setStation | getStation | nextChange =>
    exact s.hostCommand_keepsForm _
  case reset => exact s.resetCommand_keepsForm
  case unknownCommand code | discardedCommandWrite code => exact s.writeCommand_keepsForm code
  case commandCompletion => exact s.completeCommand_keepsForm.live
  case eventsWrite | bufSelectWrite | bufOffsetWrite | timeLoRead => exact (State.KeepsForm.refl s).live
  case enableWrite bank value => cases bank <;> exact (State.KeepsForm.refl s).live
  case bufDataRead => exact s.readBufData_keepsForm.live
  case bufDataWrite value => exact State.KeepsForm.live (f := (·.writeBufData value)) (s.writeBufData_keepsForm value)
  case registerWrite offset value => exact (s.hostWrite_keepsForm offset value).live
  case resetAssert => exact (State.Acts.hardReset true).keepsForm
  case resetRelease => exact .refl s
  case powerOn => exact (State.Acts.hardReset _).keepsForm
  case initialisationEnd => exact State.Acts.endInitialisation.live_keepsForm
  case characterDelivered data mark parity stop => exact (s.deliver_acts data mark parity stop).live_keepsForm
  case confirmedStartBit => exact s.startCharacter_acts.live_keepsForm
  case spaceCharacter => exact s.releaseSpace_acts.live_keepsForm
  case breakDetected => exact State.Acts.detectBreak.live_keepsForm
  case breakEnd => exact State.Acts.endBreak.live_keepsForm
  case telegramGapExpiry => exact s.telegramGapEnd_acts.live_keepsForm
  case deLeadExpiry => exact s.deLeadEnd_acts.live_keepsForm
  case deTrailExpiry => exact s.deTrailEnd_acts.live_keepsForm
  case echoMissing =>
    refine State.KeepsForm.live ?_
    split
    · exact (State.KeepsForm.refl s).collide
    all_goals exact .refl s
  case answerTimerExpiry => exact State.Acts.answerTimerEnd.live_keepsForm
  case characterGapExpiry => exact State.Acts.characterGapEnd.live_keepsForm
  case settleTimerExpiry => exact State.Acts.settleEnd.live_keepsForm
  case holdoffExpiry => exact State.Acts.holdoffEnd.live_keepsForm
  case timeCounterTick => exact State.Acts.tick.live_keepsForm
  case tenMsTick => exact State.Acts.tick10.live_keepsForm
  case hundredMsTick => exact State.Acts.tick100.live_keepsForm
  case pollCountdownExpiry a => exact (s.pollFallsDue_acts a).live_keepsForm
  case probeCountdownExpiry a => exact (s.probeFallsDue_acts a).live_keepsForm
  case holdEnd => exact State.Acts.endHolds.live_keepsForm
  case characterSent =>
    refine State.KeepsForm.live ?_
    split
    · rename_i htx
      exact (State.Acts.characterSent _ (by simp [htx])).keepsForm
    all_goals exact .refl s
  case rxdReturnToMark => exact s.returnToMark_acts.live_keepsForm

/-! ## The step -/

/-- A step runs the command at the front of the queue. -/
theorem step_of_cons {s : State} {c : Instr} {rest : List Instr} (h : s.pending = c :: rest) :
    step s = exec c { s with pending := rest } := by
  simp only [step, h]

/-- On an empty queue the block idles (log entry 2). -/
theorem step_of_nil {s : State} (h : s.pending = []) : step s = .next s := by
  simp only [step, h]

/-- Settles O1: by whether a command is waiting. -/
theorem stepRunsFrontCommand : Obligations.StepRunsFrontCommand :=
  ⟨fun _ _ _ => step_of_cons, fun _ => step_of_nil⟩

/-- Settles O2: no row touches the waiting commands. -/
theorem execKeepsPendingQueue : Obligations.ExecKeepsPendingQueue :=
  fun _ _ _ hexec => (exec_keepsForm hexec).1

/-- Settles O59: by whether a command is waiting; its row keeps the form, and message memory does not see that the
command has left the queue. -/
theorem stepKeepsMemoryForm : Obligations.StepKeepsMemoryForm := by
  intro s t hwf hstep
  cases hpending : s.pending with
  | nil =>
    obtain rfl := Host.Outcome.next.inj ((step_of_nil hpending).symm.trans hstep)
    exact hwf
  | cons c rest => exact (exec_keepsForm ((step_of_cons hpending).symm.trans hstep)).2 hwf

end Sys2Proof.Machine
end
